-- ==== Sys2Proof/Word.lean ====
section
/-! DEFINITION. The word types of the Thermal CORE: the unsigned widths of spec/00_scope.md R9 (u8, u16, u32) and the
19-bit aperture address of spec/20_memory.md R60. Only what the spec treats as bits is a bit vector; indices, counts
and offsets are natural numbers. -/

namespace Sys2Proof

/-- u8 (R9). -/
abbrev Byte := BitVec 8

/-- u16 (R9): a radiometric sample, a RAW cell, a range bound. -/
abbrev Half := BitVec 16

/-- u32 (R9): a CSR as the bus carries it, a command word, a 32-bit counter. -/
abbrev Word := BitVec 32

/-- A byte address of the aperture: 19 bits, an offset from the aperture base (R60, R63). -/
abbrev Addr := BitVec 19

end Sys2Proof
end

