-- ==== Sys2Proof/Syntax.lean ====
section
/-! DEFINITION. The instructions of the Thermal CORE: the seven command words of spec/30_encoding.md R103, one
constructor for each row of spec/opcode_table.json. The other host operations (bus reads and writes, hard reset) have no
bit pattern and no row (R106); they are `Machine.HostOp`. -/

namespace Sys2Proof

/-- A command (R2, R103). SEG and LEN are numbers, an index and a byte count; their ranges are `Instr.WellFormed`. -/
inductive Instr where
  /-- NOP (R130). -/
  | nop
  /-- SRST, the assembler reset (R131). -/
  | srst
  /-- RECV, commit shelf slot `seg` with a datagram of `len` bytes (R141). -/
  | recv (seg len : Nat)
  /-- ASM, assemble the four segments (R142). -/
  | asm
  /-- SCALE, compute the intensity grid (R160). -/
  | scale
  /-- MAP, compute the colour grid (R180). -/
  | map
  /-- FRAME, assemble, scale and map in one step (R190). -/
  | frame
  deriving DecidableEq, Repr

end Sys2Proof
end

