-- ==== Sys2Proof/WellFormed.lean ====
section
/-! DEFINITION. Which command terms have a command word: the operand ranges of spec/30_encoding.md R101 and R102. -/

namespace Sys2Proof

/-- Every operand fits its field: SEG is 0 to 3 and LEN is 0 to 65535 (R102). A LEN other than 9840 is well-formed: it is
a legal word whose effect is the length error (R104). -/
def Instr.wellFormed : Instr → Bool
  | .nop => true
  | .srst => true
  | .recv seg len => decide (seg < 4) && decide (len < 65536)
  | .asm => true
  | .scale => true
  | .map => true
  | .frame => true

/-- The check as a proposition. -/
abbrev Instr.WellFormed (i : Instr) : Prop := i.wellFormed = true

end Sys2Proof
end

