-- ==== Sys2Proof/Decode.lean ====
section
/-! DEFINITION. The decoder and the encoder of the command word: format C of spec/30_encoding.md R100 to R105. The
decoder is total on all 32-bit words and rejects by name; it looks the word up in the rows of the opcode map, as R105
says. -/

namespace Sys2Proof

/-- Why a word is illegal: the three cases of R104. -/
inductive Illegal where
  /-- OP is 0x7 to 0xF, reserved for later versions. -/
  | reservedOp
  /-- OP is 0x2 (RECV) and a reserved bit (7:6 or 31:24) is set. -/
  | recvReservedBits
  /-- OP is one of the commands without operands and a bit of 31:4 is set. -/
  | strayBits
  deriving DecidableEq, Repr

/-- OP = w[3:0] (R102). -/
def opField (w : Word) : Nat := (w.extractLsb' 0 4).toNat

/-- SEG = w[5:4] (R102). -/
def segField (w : Word) : Nat := (w.extractLsb' 4 2).toNat

/-- LEN = w[23:8] (R102). -/
def lenField (w : Word) : Nat := (w.extractLsb' 8 16).toNat

/-- A row of the opcode map: a word belongs to the row when `w AND mask` is `pattern`, and `read` extracts its fields. -/
structure OpRow where
  pattern : Word
  mask : Word
  read : Word → Instr

/-- Does the word match the row (R103)? -/
def OpRow.fits (r : OpRow) (w : Word) : Bool := (w &&& r.mask) == r.pattern

/-- The opcode map (R103; spec/opcode_table.json), in the table's order. -/
def opRows : List OpRow :=
  [ { pattern := 0x00000000#32, mask := 0xFFFFFFFF#32, read := fun _ => .nop },
    { pattern := 0x00000001#32, mask := 0xFFFFFFFF#32, read := fun _ => .srst },
    { pattern := 0x00000002#32, mask := 0xFF0000CF#32, read := fun w => .recv (segField w) (lenField w) },
    { pattern := 0x00000003#32, mask := 0xFFFFFFFF#32, read := fun _ => .asm },
    { pattern := 0x00000004#32, mask := 0xFFFFFFFF#32, read := fun _ => .scale },
    { pattern := 0x00000005#32, mask := 0xFFFFFFFF#32, read := fun _ => .map },
    { pattern := 0x00000006#32, mask := 0xFFFFFFFF#32, read := fun _ => .frame } ]

/-- Which of R104's cases a word that matches no row falls under. -/
def whyIllegal (w : Word) : Illegal :=
  if 7 ≤ opField w then .reservedOp else if opField w = 2 then .recvReservedBits else .strayBits

/-- The decoder (R105). -/
def decode (w : Word) : Except Illegal Instr :=
  match opRows.find? (fun r => r.fits w) with
  | some r => .ok (r.read w)
  | none => .error (whyIllegal w)

/-- The word of a command: its row's pattern, and `2 + 16*SEG + 256*LEN` for RECV (R102, R103). -/
def encode : Instr → Word
  | .nop => 0x00000000#32
  | .srst => 0x00000001#32
  | .recv seg len => BitVec.ofNat 32 (2 + 16 * seg + 256 * len)
  | .asm => 0x00000003#32
  | .scale => 0x00000004#32
  | .map => 0x00000005#32
  | .frame => 0x00000006#32

/-- The command word whose low `nbits` bits are those of `w` and whose other bits are zero. -/
def tableWord (nbits w : Nat) : Word := BitVec.ofNat 32 (w % 2 ^ nbits)

/-- What the decoder reads from a word numbered as spec/opcode_table.json numbers it. A command is one 32-bit number
carried by one bus write (R100), so there are no bytes to order. -/
def decodeTableWord (nbits w : Nat) : Option Instr :=
  match decode (tableWord nbits w) with
  | .ok i => some i
  | .error _ => none

end Sys2Proof
end

