-- ==== Sys2Proof/Config.lean ====
section
/-! DEFINITION. What is fixed for one CORE: the constants of spec/00_scope.md R5, which the model takes as literals, and
the open parameters of R6, which are opaque constants without a body, so that a claim holds for every value of them. -/

namespace Sys2Proof.Config

/-! ### Fixed constants (R5) -/

/-- WIDTH: columns of a frame. -/
@[simp] abbrev width : Nat := 160
/-- HEIGHT: rows of a frame. -/
@[simp] abbrev height : Nat := 120
/-- SEGMENTS: segments per frame. -/
@[simp] abbrev segments : Nat := 4
/-- SEG_ROWS: frame rows per segment. -/
@[simp] abbrev segRows : Nat := 30
/-- PACKETS_PER_FRAME: packets per SEGMENT (spec/90_conflicts.md C6). -/
@[simp] abbrev packetsPerSegment : Nat := 60
/-- SEG_BYTES: bytes per segment, 164 * 60. -/
@[simp] abbrev segBytes : Nat := 9840
/-- HDR_WORDS: header 16-bit words at the start of a packet. -/
@[simp] abbrev hdrWords : Nat := 2
/-- PKT_SAMPLES: samples per packet. -/
@[simp] abbrev pktSamples : Nat := 80
/-- PACKET_SIZE_UINT16: 16-bit words per packet. -/
@[simp] abbrev packetWords : Nat := 82
/-- PAL_BYTES: bytes per palette, 3 * 256. -/
@[simp] abbrev palBytes : Nat := 768

/-! ### Open parameters (R6): no rule fixes their values, and nothing here can evaluate them -/

/-- The id of the last palette. N_PALETTES is any number from 1 to 256, so the last id is any byte. -/
opaque lastPalette : Byte

/-- N_PALETTES (R6), 1 to 256. -/
def nPalettes : Nat := lastPalette.toNat + 1

/-- PAL_ROM (R6, R46, R185): the byte at offset `k` (0 to 767) of palette `p`. -/
opaque palRom (p : Byte) (k : Nat) : Byte

/-- POWERON_MEM (R6, R47; spec/93_implementation_defined.md U1): what the memory byte at an aperture address holds after
power-on, until it is written. Any value, the same on every read. A free value, never zero by assumption. -/
opaque powerOnByte (a : Nat) : Byte

end Sys2Proof.Config
end

