-- ==== Sys2Proof/Machine/Map.lean ====
section
/-! DEFINITION. The address map of the aperture (spec/20_memory.md R60 to R67): the windows, their one access width, the
address formulas of every cell and their inverses (spec/40_bus_and_control.md R120), and which accesses are accepted. -/

namespace Sys2Proof.Machine

/-- The number of bytes of a bus access: 1, 2 or 4 (R61). -/
inductive Width where
  | byte
  | half
  | word
  deriving DecidableEq, Repr

/-- `n` of R61. -/
def Width.bytes : Width → Nat
  | .byte => 1
  | .half => 2
  | .word => 4

/-- The six windows of R62. -/
inductive Window where
  | csr
  | shelf
  | raw
  | int
  | col
  | pal
  deriving DecidableEq, Repr

/-- One row of the map of R62: the window, its first address, its size in bytes and its one access width. -/
structure Region where
  window : Window
  base : Nat
  size : Nat
  width : Width
  deriving DecidableEq, Repr

/-- The map (R62), row by row. -/
def regions : List Region :=
  [ { window := .csr, base := 0x00000, size := 64, width := .word },
    { window := .shelf, base := 0x10000, size := 9840, width := .byte },
    { window := .shelf, base := 0x14000, size := 9840, width := .byte },
    { window := .shelf, base := 0x18000, size := 9840, width := .byte },
    { window := .shelf, base := 0x1C000, size := 9840, width := .byte },
    { window := .raw, base := 0x20000, size := 38400, width := .half },
    { window := .int, base := 0x30000, size := 19200, width := .byte },
    { window := .col, base := 0x40000, size := 57600, width := .byte },
    { window := .pal, base := 0x50000, size := 768, width := .byte } ]

/-- Does the region hold this byte address? -/
def Region.holds (g : Region) (a : Nat) : Bool := decide (g.base ≤ a) && decide (a < g.base + g.size)

/-- The region a byte address lies in; none where it is unmapped (R64). -/
def regionAt (a : Nat) : Option Region := regions.find? (fun g => g.holds a)

/-- Every byte of the access lies in a window (R64). -/
def mapped (a : Nat) (w : Width) : Bool := (List.range w.bytes).all fun k => (regionAt (a + k)).isSome

/-- The region an access goes to when it is accepted: mapped, of the window's width, and aligned (R67, R120, R121). -/
def accepted (a : Nat) (w : Width) : Option Region :=
  match regionAt a with
  | some g => if mapped a w = true ∧ g.width = w ∧ a % w.bytes = 0 then some g else none
  | none => none

/-! ### The address of each cell (R62, R108) -/

/-- Byte `k` of shelf slot `s`. -/
def shelfAddr (s k : Nat) : Nat := 0x10000 + 0x4000 * s + k

/-- RAWADDR(r,c). -/
def rawAddr (r c : Nat) : Nat := 0x20000 + 2 * (160 * r + c)

/-- INTADDR(r,c). -/
def intAddr (r c : Nat) : Nat := 0x30000 + (160 * r + c)

/-- COLADDR(r,c,ch). -/
def colAddr (r c ch : Nat) : Nat := 0x40000 + (3 * (160 * r + c) + ch)

/-! ### The cell of each address (R120) -/

/-- The slot of a shelf address. -/
def shelfSlotOf (a : Nat) : Nat := (a - 0x10000) / 0x4000
/-- The byte offset of a shelf address in its slot. -/
def shelfByteOf (a : Nat) : Nat := (a - 0x10000) % 0x4000
/-- The row of a RAW address. -/
def rawRowOf (a : Nat) : Nat := ((a - 0x20000) / 2) / 160
/-- The column of a RAW address. -/
def rawColumnOf (a : Nat) : Nat := ((a - 0x20000) / 2) % 160
/-- The row of an INT address. -/
def intRowOf (a : Nat) : Nat := (a - 0x30000) / 160
/-- The column of an INT address. -/
def intColumnOf (a : Nat) : Nat := (a - 0x30000) % 160
/-- The row of a COL address. -/
def colRowOf (a : Nat) : Nat := ((a - 0x40000) / 3) / 160
/-- The column of a COL address. -/
def colColumnOf (a : Nat) : Nat := ((a - 0x40000) / 3) % 160
/-- The channel of a COL address. -/
def colChannelOf (a : Nat) : Nat := (a - 0x40000) % 3
/-- The byte offset of a palette address. -/
def palOffsetOf (a : Nat) : Nat := a - 0x50000

/-! ### The CSR file (spec/10_state.md R22) -/

/-- The sixteen word slots of the CSR window. -/
inductive Csr where
  | cmd
  | status
  | rangeMin
  | rangeMax
  | mode
  | palsel
  | dropFrame
  | dropTotal
  | frames
  | effMin
  | effMax
  | geom
  | npal
  | reserved34
  | reserved38
  | reserved3C
  deriving DecidableEq, Repr

/-- The byte offset of a CSR, which is its aperture address (R22, R62). -/
def Csr.offset : Csr → Nat
  | .cmd => 0x00
  | .status => 0x04
  | .rangeMin => 0x08
  | .rangeMax => 0x0C
  | .mode => 0x10
  | .palsel => 0x14
  | .dropFrame => 0x18
  | .dropTotal => 0x1C
  | .frames => 0x20
  | .effMin => 0x24
  | .effMax => 0x28
  | .geom => 0x2C
  | .npal => 0x30
  | .reserved34 => 0x34
  | .reserved38 => 0x38
  | .reserved3C => 0x3C

/-- The CSR at an accepted CSR address; an accepted address is one of the sixteen offsets (R67), so the last arm is 0x3C. -/
def Csr.at : Nat → Csr
  | 0x00 => .cmd
  | 0x04 => .status
  | 0x08 => .rangeMin
  | 0x0C => .rangeMax
  | 0x10 => .mode
  | 0x14 => .palsel
  | 0x18 => .dropFrame
  | 0x1C => .dropTotal
  | 0x20 => .frames
  | 0x24 => .effMin
  | 0x28 => .effMax
  | 0x2C => .geom
  | 0x30 => .npal
  | 0x34 => .reserved34
  | 0x38 => .reserved38
  | _ => .reserved3C

end Sys2Proof.Machine
end

