-- ==== Sys2Proof/Machine/State.lean ====
section
/-! DEFINITION. The state of the CORE as plain data (spec/10_state.md R50), the host operations it answers
(spec/20_memory.md R61), the conditions it raises (spec/60_exceptions.md R202), the two ways a step of the model could
stop, and the state after a power-on reset (spec/70_reset_and_hazards.md R231). -/

namespace Sys2Proof.Machine

/-- The data of a bus transfer: an unsigned value of 8, 16 or 32 bits (R61). -/
inductive BusData where
  | b8 (v : Byte)
  | b16 (v : Half)
  | b32 (v : Word)
  deriving DecidableEq, Repr

/-- One host operation (R61, R132; HRESET of R107): a bus read of a width, a bus write of data, or a hard reset. -/
inductive HostOp where
  | read (addr : Addr) (w : Width)
  | write (addr : Addr) (data : BusData)
  | hreset
  deriving DecidableEq, Repr

/-- The response to a bus operation (R61): OK with the value read, OK to a write, or ERR. -/
inductive Response where
  | value (v : BusData)
  | ok
  | err
  deriving DecidableEq, Repr

/-- The conditions of R202, each with a sticky flag in STATUS. -/
inductive Condition where
  /-- MalformedSample: a delivered assembly counted a zero sample. -/
  | dropped
  /-- DegenerateRange: SCALE found EFF_MAX = EFF_MIN. -/
  | degen
  /-- PaletteBoundsViolation: MAP changed a palette offset by its clamp. -/
  | palclamp
  /-- RECV carried a LEN other than 9840. -/
  | lenerr
  /-- A command was refused because its precondition did not hold. -/
  | seqerr
  /-- An illegal command word was written to CMD. -/
  | illcmd
  /-- An illegal value was written to PALSEL. -/
  | cfgerr
  deriving DecidableEq, Repr

/-- A memory of the aperture (R40, R43 to R45, R62): bytes by aperture address, listed with strictly rising addresses; an
address that is not listed holds its power-on byte. The form is `Memory.wf`. -/
abbrev Memory := List Host.Cell

/-- The whole state. Every field but the last two is the spec's (R50); `script` and `responses` are the MODEL's own: the
host of R8 as data, since a step of `Host.Core` has no other input (notes/assumptions/1.md). -/
@[ext]
structure State where
  /-- PRIME (R42). -/
  prime : Bool
  /-- SEGV (R41): bit `s` says that shelf slot `s` is committed. -/
  segv : BitVec 4
  /-- RAWV (R24, R43). -/
  rawv : Bool
  /-- INTV (R24, R44). -/
  intv : Bool
  /-- COLV (R24, R45). -/
  colv : Bool
  /-- The sticky flags of R24, in the order of their bits 8 to 14. -/
  dropped : Bool
  degen : Bool
  palclamp : Bool
  lenerr : Bool
  seqerr : Bool
  illcmd : Bool
  cfgerr : Bool
  /-- RANGE_MIN (R25). -/
  rangeMin : Half
  /-- RANGE_MAX (R26). -/
  rangeMax : Half
  /-- MODE.AUTO_MIN (R27). -/
  autoMin : Bool
  /-- MODE.AUTO_MAX (R27). -/
  autoMax : Bool
  /-- PALSEL (R28). -/
  palsel : Byte
  /-- DROP_FRAME (R29). -/
  dropFrame : Half
  /-- DROP_TOTAL (R30). -/
  dropTotal : Word
  /-- FRAMES (R31). -/
  frames : Word
  /-- EFF_MIN (R32). -/
  effMin : Half
  /-- EFF_MAX (R33). -/
  effMax : Half
  /-- SHELF (R40), at its aperture addresses, as the three memories below. -/
  shelf : Memory
  /-- RAW (R43). -/
  raw : Memory
  /-- INT (R44). -/
  int : Memory
  /-- COL (R45). -/
  col : Memory
  /-- The host operations still to come, the next one first. -/
  script : List HostOp
  /-- The responses given so far, the latest first. -/
  responses : List Response
  deriving DecidableEq, Repr

/-- A step never ends in a fault: "There is no stuck state and no fault state" (R132). So there is no reason for one. -/
inductive Fault where
  deriving DecidableEq, Repr

/-- Why an instruction could have no meaning in the model. -/
inductive Refusal where
  /-- An arm of `exec` whose instruction is not modelled yet; raised by no arm now. Safe: the model stops. -/
  | notModelled (mnemonic : String)
  deriving DecidableEq, Repr

/-- The CORE after a power-on reset (R231): STATUS reads 1, the range is 0 to 0xFFFF, everything else is 0; no byte of
memory has been written (R47); the host has issued nothing yet. -/
def State.reset : State where
  prime := true
  segv := 0#4
  rawv := false
  intv := false
  colv := false
  dropped := false
  degen := false
  palclamp := false
  lenerr := false
  seqerr := false
  illcmd := false
  cfgerr := false
  rangeMin := 0x0000#16
  rangeMax := 0xFFFF#16
  autoMin := false
  autoMax := false
  palsel := 0#8
  dropFrame := 0#16
  dropTotal := 0#32
  frames := 0#32
  effMin := 0#16
  effMax := 0#16
  shelf := []
  raw := []
  int := []
  col := []
  script := []
  responses := []

end Sys2Proof.Machine
end

