-- ==== Sys2Proof/Machine/Ops.lean ====
section
/-! DEFINITION. The named operations over the state: the memory and its canonical form, the grids stored in it, the SEGV
bits, raising a condition, a refusal, a response and a hard reset. The CORE takes no exceptions: `raise` is all that a
condition does (spec/60_exceptions.md R201, R206), and there is no return from one (R209). -/

namespace Sys2Proof.Machine

/-! ### Memory -/

/-- The byte at an address; where none is listed, the power-on byte (R47). -/
def Memory.read : Memory → Nat → Byte
  | [], a => Config.powerOnByte a
  | (k, b) :: rest, a => if k = a then b else Memory.read rest a

/-- The entry for a byte at an address: none when the address reads so without one. -/
def Memory.entry (a : Nat) (b : Byte) : Memory := if b = Config.powerOnByte a then [] else [(a, b)]

/-- Put entries of the address `a` before the first greater address. -/
def Memory.place (a : Nat) (new : Memory) : Memory → Memory
  | [] => new
  | (k, b) :: rest => if a < k then new ++ (k, b) :: rest else (k, b) :: Memory.place a new rest

/-- Write one byte: any entry of the address goes, and the new one, if it needs one, takes its place in the order. -/
def Memory.write (m : Memory) (a : Nat) (b : Byte) : Memory :=
  Memory.place a (Memory.entry a b) (m.filter fun c => c.1 ≠ a)

/-- The canonical form: addresses strictly rising, and no entry that says what its address reads as without it. -/
abbrev Memory.wf (m : Memory) : Prop :=
  m.Pairwise (fun c d => c.1 < d.1) ∧ ∀ c ∈ m, c.2 ≠ Config.powerOnByte c.1

/-! ### The memories and grids (R10, R40, R43 to R45), at their aperture addresses -/

/-- SHELF[s][k]. -/
def Memory.shelfByte (m : Memory) (s k : Nat) : Byte := m.read (shelfAddr s k)

/-- SHELF[s][k] <- b. -/
def Memory.setShelfByte (m : Memory) (s k : Nat) (b : Byte) : Memory := m.write (shelfAddr s k) b

/-- RAW[r][c]: a number (R97); its low byte is stored at the lower address (R66; not observable through the aperture). -/
def Memory.rawCell (m : Memory) (r c : Nat) : Half := m.read (rawAddr r c + 1) ++ m.read (rawAddr r c)

/-- RAW[r][c] <- v. -/
def Memory.setRawCell (m : Memory) (r c : Nat) (v : Half) : Memory :=
  (m.write (rawAddr r c) (v.extractLsb' 0 8)).write (rawAddr r c + 1) (v.extractLsb' 8 8)

/-- INT[r][c]. -/
def Memory.intCell (m : Memory) (r c : Nat) : Byte := m.read (intAddr r c)

/-- INT[r][c] <- b. -/
def Memory.setIntCell (m : Memory) (r c : Nat) (b : Byte) : Memory := m.write (intAddr r c) b

/-- COL[r][c][ch]. -/
def Memory.colByte (m : Memory) (r c ch : Nat) : Byte := m.read (colAddr r c ch)

/-- COL[r][c][ch] <- b. -/
def Memory.setColByte (m : Memory) (r c ch : Nat) (b : Byte) : Memory := m.write (colAddr r c ch) b

/-! ### Loops -/

/-- `for k in 0..n-1: body k` (R10): ascending, every iteration on what the one before it left. -/
def loop {α : Type} (body : Nat → α → α) : Nat → α → α
  | 0, x => x
  | n + 1, x => body n (loop body n x)

/-- `for r in 0..119: for c in 0..159: body r c`: every cell of a grid, row by row. -/
def forCells {α : Type} (body : Nat → Nat → α → α) (x : α) : α :=
  loop (fun r => loop (body r) Config.width) Config.height x

/-! ### Cycle state (R41, R42) -/

/-- SEGV[seg] <- v. -/
def State.setSegv (s : State) (seg : Nat) (v : Bool) : State :=
  { s with segv := if v then s.segv ||| (1#4 <<< seg) else s.segv &&& ~~~(1#4 <<< seg) }

/-- `for s in 0..3: SEGV[s] <- 0`: the shelf is emptied. -/
def State.clearSegv (s : State) : State := { s with segv := 0#4 }

/-- `SEGV = 0b1111`: a complete cycle (R96). -/
def State.allCommitted (s : State) : Bool := s.segv == 0b1111#4

/-! ### Conditions -/

/-- Raise a condition if `p` holds: its sticky flag becomes 1 (it stays 1 if already 1), and nothing else changes (R201). -/
def State.raiseIf (s : State) (p : Bool) (c : Condition) : State :=
  { s with
    dropped := s.dropped || (p && decide (c = .dropped))
    degen := s.degen || (p && decide (c = .degen))
    palclamp := s.palclamp || (p && decide (c = .palclamp))
    lenerr := s.lenerr || (p && decide (c = .lenerr))
    seqerr := s.seqerr || (p && decide (c = .seqerr))
    illcmd := s.illcmd || (p && decide (c = .illcmd))
    cfgerr := s.cfgerr || (p && decide (c = .cfgerr)) }

/-- `raise <Condition>` (R11, R201): set its sticky flag, and nothing else; the operation goes on as its rule says. -/
def State.raise (s : State) (c : Condition) : State := s.raiseIf true c

/-- A refused command (R128, R203): SEQERR and nothing else. -/
def State.refuseCommand (s : State) : State := s.raise .seqerr

/-! ### The host's side, and reset -/

/-- Record the response of a bus operation (R61, R126). -/
def State.respond (s : State) (r : Response) : State := { s with responses := r :: s.responses }

/-- A hard reset (R230, R231): every register, flag and counter takes its reset value; the memories keep what they hold,
and the host keeps what it knows. -/
def State.hardReset (s : State) : State :=
  { State.reset with
    shelf := s.shelf, raw := s.raw, int := s.int, col := s.col, script := s.script, responses := s.responses }

end Sys2Proof.Machine
end

