-- ==== Sys2Proof/Machine/Operands.lean ====
section
/-! DEFINITION. What the commands read besides their own word (spec/10_state.md R20): sample words of the shelf
(spec/20_memory.md R65), the effective range bounds (spec/42_scaler.md R161, R162) and palette entries
(spec/43_colormap.md R182). -/

namespace Sys2Proof.Machine

/-! ### Samples (R65, R92) -/

/-- The sample index of word `p` of packet `j`: `i = 82*j + p` (R92). -/
def sampleIndex (j p : Nat) : Nat := Config.packetWords * j + p

/-- `word(s, i)` of a shelf (R65): bytes `2i` and `2i+1` of slot `s`, big-endian. -/
def Memory.sampleWord (m : Memory) (s i : Nat) : Half := m.shelfByte s (2 * i) ++ m.shelfByte s (2 * i + 1)

/-! ### The range (R161, R162) -/

/-- The running minimum and maximum of R162. -/
structure Tracker where
  tmin : Half
  tmax : Half
  deriving DecidableEq, Repr

/-- One cell of the scan: a zero cell is not tracked. -/
def Tracker.see (t : Tracker) (v : Half) : Tracker :=
  if v = 0#16 then t
  else { tmin := if v < t.tmin then v else t.tmin, tmax := if t.tmax < v then v else t.tmax }

/-- `track()` (R162) over a RAW grid: the least and the greatest non-zero cell of RAW, from the start values 0xFFFF and 0x0000. -/
def Memory.track (m : Memory) : Tracker :=
  forCells (fun r c t => t.see (m.rawCell r c)) { tmin := 0xFFFF#16, tmax := 0x0000#16 }

/-- The effective lower bound (R161): tracked when AUTO_MIN is set, else RANGE_MIN. -/
def State.lowerBound (s : State) : Half := if s.autoMin then s.raw.track.tmin else s.rangeMin

/-- The effective upper bound (R161): tracked when AUTO_MAX is set, else RANGE_MAX. -/
def State.upperBound (s : State) : Half := if s.autoMax then s.raw.track.tmax else s.rangeMax

/-! ### Palette entries (R182) -/

/-- `clamp(x, lo, hi)` (R9). -/
def clamp (x lo hi : Nat) : Nat := if x < lo then lo else if hi < x then hi else x

/-- The palette offset of channel `ch` for intensity `I` (R182): `clamp(3*I + ch, 0, 767)`. -/
def palOffset (i : Byte) (ch : Nat) : Nat := clamp (3 * i.toNat + ch) 0 (Config.palBytes - 1)

/-- Did the clamp change the offset (R184, R202: PALCLAMP)? -/
def palClamps (i : Byte) (ch : Nat) : Bool := palOffset i ch != 3 * i.toNat + ch

/-- Channel `ch` of `map_px(I, p)` (R182). -/
def mapPx (p i : Byte) (ch : Nat) : Byte := Config.palRom p (palOffset i ch)

end Sys2Proof.Machine
end

