-- ==== Sys2Proof/Machine/Control.lean ====
section
/-! DEFINITION. The two control commands, NOP and SRST (spec/40_bus_and_control.md R130, R131). -/

namespace Sys2Proof.Machine

/-- NOP (R130): nothing. -/
def execNop (s : State) : Host.Outcome State Fault Refusal := .next s

/-- SRST (R131): PRIME is set and the shelf emptied; everything else keeps its value. -/
def execSrst (s : State) : Host.Outcome State Fault Refusal := .next { s.clearSegv with prime := true }

end Sys2Proof.Machine
end

