-- ==== Sys2Proof/Machine/Assembler.lean ====
section
/-! DEFINITION. The segment assembler, RECV and ASM (spec/41_assembler.md R141 to R151). -/

namespace Sys2Proof.Machine

/-- RECV (R141): a payload of exactly 9840 bytes commits the slot; any other length un-commits it and raises LENERR. -/
def execRecv (seg len : Nat) (s : State) : Host.Outcome State Fault Refusal :=
  if len = Config.segBytes then .next (s.setSegv seg true) else .next ((s.setSegv seg false).raise .lenerr)

/-- The priming cycle (R143): consumed, not decoded. -/
def State.priming (s : State) : State := { s.clearSegv with prime := false }

/-! ### A delivered assembly (R144) -/

/-- What `deliver()` works on: the RAW grid, and the count of zero samples. -/
structure Assembly where
  raw : Memory
  count : Nat
  deriving DecidableEq, Repr

/-- The column of sample index `i` (R147). -/
def placeColumn (i : Nat) : Nat := i % 82 - 2 + 80 * (i % 164 / 82)

/-- The row of sample index `i` of segment `s` (R147). -/
def placeRow (s i : Nat) : Nat := i / 82 / 2 + Config.segRows * s

/-- The segment whose sample reaches row `r` (R148): `s = row div 30`. -/
def sourceSegment (r : Nat) : Nat := r / 30

/-- The packet of that segment whose sample reaches cell `(r, c)` (R148): `j = 2*(row mod 30) + column div 80`. -/
def sourcePacket (r c : Nat) : Nat := 2 * (r % 30) + c / 80

/-- The word of that packet (R148): `p = column mod 80 + 2`. -/
def sourceWord (c : Nat) : Nat := c % 80 + 2

/-- Write a non-zero sample to its cell, if the cell is in the frame (R147). -/
def Memory.placeSample (m : Memory) (s i : Nat) (v : Half) : Memory :=
  if placeRow s i < Config.height ∧ placeColumn i < Config.width then m.setRawCell (placeRow s i) (placeColumn i) v else m

/-- The inner loop of R144 from word `p` of packet `j`, with `left` words to go: a zero sample is counted and ends the
packet (R146), any other is placed. -/
def decodeWords (shelf : Memory) (s j : Nat) : (left p : Nat) → Assembly → Assembly
  | 0, _, x => x
  | left + 1, p, x =>
    let v := shelf.sampleWord s (sampleIndex j p)
    if v = 0#16 then { x with count := x.count + 1 }
    else decodeWords shelf s j left (p + 1) { x with raw := x.raw.placeSample s (sampleIndex j p) v }

/-- One packet: its header words are skipped (R145), its 80 sample words decoded. -/
def decodePacketInto (shelf : Memory) (s j : Nat) (x : Assembly) : Assembly :=
  decodeWords shelf s j Config.pktSamples Config.hdrWords x

/-- The loops of R144 over the segments and their packets: the shelf's samples into the RAW grid. -/
def assemble (shelf raw : Memory) : Assembly :=
  loop (fun s => loop (decodePacketInto shelf s) Config.packetsPerSegment) Config.segments { raw := raw, count := 0 }

/-- `finish(count)` (R149). -/
def State.finish (s : State) (count : Nat) : State :=
  ({ s.clearSegv with
      dropFrame := BitVec.ofNat 16 count
      dropTotal := s.dropTotal + BitVec.ofNat 32 count
      frames := s.frames + 1#32
      rawv := true
      intv := false
      colv := false }).raiseIf (count != 0) .dropped

/-- `deliver()` (R144, R149). -/
def State.deliver (s : State) : State :=
  let x := assemble s.shelf s.raw
  { s with raw := x.raw }.finish x.count

/-- ASM (R142): refused unless all four slots are committed; then the priming cycle or a delivered assembly. -/
def execAsm (s : State) : Host.Outcome State Fault Refusal :=
  if s.allCommitted = false then .next s.refuseCommand
  else if s.prime then .next s.priming
  else .next s.deliver

/-! ### The per-packet result (R151) -/

/-- `Complete | Truncated(at: index)` (R151). -/
inductive PacketResult where
  | complete
  | truncated (z : Nat)
  deriving DecidableEq, Repr

/-- The first zero word of packet `j` from word `p` on, of `left` words. -/
def Memory.firstZero (m : Memory) (s j : Nat) : (left p : Nat) → PacketResult
  | 0, _ => .complete
  | left + 1, p =>
    if m.sampleWord s (sampleIndex j p) = 0#16 then .truncated p else Memory.firstZero m s j left (p + 1)

/-- `decode_packet(s, j)` (R151). -/
def Memory.decodePacket (m : Memory) (s j : Nat) : PacketResult :=
  m.firstZero s j Config.pktSamples Config.hdrWords

/-- Is the packet truncated? -/
def PacketResult.isTruncated : PacketResult → Bool
  | .complete => false
  | .truncated _ => true

/-- Does the packet write the cell of its word `p` (R151)? -/
def PacketResult.writes (p : Nat) : PacketResult → Bool
  | .complete => true
  | .truncated z => decide (p < z)

/-- The number of truncated packets of the four slots: what R151 says the count of an assembly is. -/
def Memory.truncatedPackets (m : Memory) : Nat :=
  loop (fun s => loop (fun j n => if (m.decodePacket s j).isTruncated then n + 1 else n) Config.packetsPerSegment)
    Config.segments 0

end Sys2Proof.Machine
end

