-- ==== Sys2Proof/Machine/Colormap.lean ====
section
/-! DEFINITION. The colormap engine, MAP (spec/43_colormap.md R180 to R184). -/

namespace Sys2Proof.Machine

/-- `COL[r][c][0..2] <- map_px(INT[r][c], p)` for one cell (R180). -/
def mapCell (p : Byte) (int : Memory) (r c : Nat) (col : Memory) : Memory :=
  let i := int.intCell r c
  ((col.setColByte r c 0 (mapPx p i 0)).setColByte r c 1 (mapPx p i 1)).setColByte r c 2 (mapPx p i 2)

/-- Every cell (R180). -/
def mapGrid (p : Byte) (int col : Memory) : Memory := forCells (mapCell p int) col

/-- Does the clamp change the offset of any channel of any cell (R202)? Never (R184); kept because R182 has the clamp. -/
def clampsAny (int : Memory) : Bool :=
  forCells (fun r c b => b || palClamps (int.intCell r c) 0 || palClamps (int.intCell r c) 1 ||
    palClamps (int.intCell r c) 2) false

/-- `map_body()`: MAP's branch for INTV = 1 (R180). -/
def State.mapBody (s : State) : State :=
  { s with col := mapGrid s.palsel s.int s.col, colv := true }.raiseIf (clampsAny s.int) .palclamp

/-- MAP (R180): refused unless INTV is set. -/
def execMap (s : State) : Host.Outcome State Fault Refusal :=
  if s.intv then .next s.mapBody else .next s.refuseCommand

end Sys2Proof.Machine
end

