-- ==== Sys2Proof/Machine/Scaler.lean ====
section
/-! DEFINITION. The radiometric scaler, SCALE (spec/42_scaler.md R160 to R168). -/

namespace Sys2Proof.Machine

/-- `scale_px(v, emin, emax)` (R164): the three tests in this order; the quotient is the floor of the exact one, over
unbounded naturals (R167). -/
def scalePx (v emin emax : Half) : Byte :=
  if v ≤ emin then 0#8
  else if emax < v then 255#8
  else BitVec.ofNat 8 ((v.toNat - emin.toNat) * 255 / (emax.toNat - emin.toNat))

/-- `INT[r][c] <- scale_px(RAW[r][c], emin, emax)` for every cell (R160). -/
def scaleGrid (raw : Memory) (emin emax : Half) (int : Memory) : Memory :=
  forCells (fun r c m => m.setIntCell r c (scalePx (raw.rawCell r c) emin emax)) int

/-- `INT[r][c] <- 0` for every cell: the fallback of a degenerate range (R165). -/
def zeroGrid (int : Memory) : Memory := forCells (fun r c m => m.setIntCell r c 0#8) int

/-- `scale_body()`: SCALE's branch for RAWV = 1 (R160, R163, R165, R168). -/
def State.scaleBody (s : State) : State :=
  let emin := s.lowerBound
  let emax := s.upperBound
  let t := { s with
    effMin := emin
    effMax := emax
    int := if emax = emin then zeroGrid s.int else scaleGrid s.raw emin emax s.int
    intv := true
    colv := false }
  t.raiseIf (emax == emin) .degen

/-- SCALE (R160): refused unless RAWV is set. -/
def execScale (s : State) : Host.Outcome State Fault Refusal :=
  if s.rawv then .next s.scaleBody else .next s.refuseCommand

end Sys2Proof.Machine
end

