-- ==== Sys2Proof/Machine/Frame.lean ====
section
/-! DEFINITION. The whole-frame pipeline, FRAME (spec/44_frame.md R190, R191). -/

namespace Sys2Proof.Machine

/-- FRAME (R190): refused unless all four slots are committed; the priming cycle; or assemble, scale and map. -/
def execFrame (s : State) : Host.Outcome State Fault Refusal :=
  if s.allCommitted = false then .next s.refuseCommand
  else if s.prime then .next s.priming
  else .next s.deliver.scaleBody.mapBody

end Sys2Proof.Machine
end

