-- ==== Sys2Proof/Machine/Dispatch.lean ====
section
/-! DEFINITION. The dispatch of a decoded command to its meaning (spec/40_bus_and_control.md R126). -/

namespace Sys2Proof.Machine

def exec (i : Instr) (s : State) : Host.Outcome State Fault Refusal :=
  match i with
  | .nop => Sys2Proof.Machine.execNop s
  | .srst => Sys2Proof.Machine.execSrst s
  | .recv seg len => Sys2Proof.Machine.execRecv seg len s
  | .asm => Sys2Proof.Machine.execAsm s
  | .scale => Sys2Proof.Machine.execScale s
  | .map => Sys2Proof.Machine.execMap s
  | .frame => Sys2Proof.Machine.execFrame s

end Sys2Proof.Machine
end

