-- ==== Sys2Proof/Machine/Flags.lean ====
section
/-! DEFINITION. The flags of the CORE, which are the bits of STATUS and nothing else (spec/10_state.md R37): the STATUS
word (spec/40_bus_and_control.md R124), each condition's flag and cause code (spec/60_exceptions.md R202), and the
write-1-to-clear of R125. -/

namespace Sys2Proof.Machine

/-- The STATUS read value (R124), high bit first:
17 zeros, CFGERR, ILLCMD, SEQERR, LENERR, PALCLAMP, DEGEN, DROPPED, COLV, INTV, RAWV, SEGV[3..0], PRIME. -/
def State.statusWord (s : State) : Word :=
  0#17 ++ BitVec.ofBool s.cfgerr ++ BitVec.ofBool s.illcmd ++ BitVec.ofBool s.seqerr ++ BitVec.ofBool s.lenerr ++
    BitVec.ofBool s.palclamp ++ BitVec.ofBool s.degen ++ BitVec.ofBool s.dropped ++ BitVec.ofBool s.colv ++
    BitVec.ofBool s.intv ++ BitVec.ofBool s.rawv ++ s.segv ++ BitVec.ofBool s.prime

/-- The sticky flag of a condition. -/
def State.flag (s : State) : Condition → Bool
  | .dropped => s.dropped
  | .degen => s.degen
  | .palclamp => s.palclamp
  | .lenerr => s.lenerr
  | .seqerr => s.seqerr
  | .illcmd => s.illcmd
  | .cfgerr => s.cfgerr

/-- The cause code of a condition: its bit of STATUS (R201, R202). -/
def Condition.code : Condition → Nat
  | .dropped => 8
  | .degen => 9
  | .palclamp => 10
  | .lenerr => 11
  | .seqerr => 12
  | .illcmd => 13
  | .cfgerr => 14

/-- A STATUS write (R125): each sticky flag whose bit of `v` is 1 becomes 0; every other bit of `v` is ignored. -/
def State.clearFlags (s : State) (v : Word) : State :=
  { s with
    dropped := s.dropped && !v.getLsbD 8
    degen := s.degen && !v.getLsbD 9
    palclamp := s.palclamp && !v.getLsbD 10
    lenerr := s.lenerr && !v.getLsbD 11
    seqerr := s.seqerr && !v.getLsbD 12
    illcmd := s.illcmd && !v.getLsbD 13
    cfgerr := s.cfgerr && !v.getLsbD 14 }

end Sys2Proof.Machine
end

