-- ==== Sys2Proof/Machine/Bus.lean ====
section
/-! DEFINITION. The bus operations (spec/40_bus_and_control.md R120, R121), CSR access (R122, R123), the dispatch of a
CMD write (R126, R127), and one host operation (R132). A CMD write is this machine's instruction fetch. -/

namespace Sys2Proof.Machine

/-- The data of a bus write as a number, zero-extended. -/
def BusData.toWord : BusData → Word
  | .b8 v => v.setWidth 32
  | .b16 v => v.setWidth 32
  | .b32 v => v

/-- The width of a bus transfer. -/
def BusData.width : BusData → Width
  | .b8 _ => .byte
  | .b16 _ => .half
  | .b32 _ => .word

/-- GEOM (R34): HEIGHT in bits 31:16, WIDTH in bits 15:0. -/
def geomWord : Word := 0x007800A0#32

/-- `csr_read(addr)` (R122). -/
def State.readCsr (s : State) : Csr → Word
  | .cmd => 0#32
  | .status => s.statusWord
  | .rangeMin => s.rangeMin.setWidth 32
  | .rangeMax => s.rangeMax.setWidth 32
  | .mode => 0#30 ++ BitVec.ofBool s.autoMax ++ BitVec.ofBool s.autoMin
  | .palsel => s.palsel.setWidth 32
  | .dropFrame => s.dropFrame.setWidth 32
  | .dropTotal => s.dropTotal
  | .frames => s.frames
  | .effMin => s.effMin.setWidth 32
  | .effMax => s.effMax.setWidth 32
  | .geom => geomWord
  | .npal => BitVec.ofNat 32 Config.nPalettes
  | .reserved34 => 0#32
  | .reserved38 => 0#32
  | .reserved3C => 0#32

/-- `MemRead(addr, n)` (R120): ERR for an access that is not accepted, else the value at the address. -/
def busRead (s : State) (addr : Addr) (w : Width) : Response :=
  let a := addr.toNat
  match accepted a w with
  | none => .err
  | some g =>
    match g.window with
    | .csr => .value (.b32 (s.readCsr (Csr.at a)))
    | .shelf => .value (.b8 (s.shelf.shelfByte (shelfSlotOf a) (shelfByteOf a)))
    | .raw => .value (.b16 (s.raw.rawCell (rawRowOf a) (rawColumnOf a)))
    | .int => .value (.b8 (s.int.intCell (intRowOf a) (intColumnOf a)))
    | .col => .value (.b8 (s.col.colByte (colRowOf a) (colColumnOf a) (colChannelOf a)))
    | .pal => .value (.b8 (Config.palRom s.palsel (palOffsetOf a)))

/-- A PALSEL write (R28, R123): WARL; an illegal value changes nothing but CFGERR. -/
def State.writePalsel (s : State) (v : Word) : State :=
  if (v.extractLsb' 0 8).toNat < Config.nPalettes then { s with palsel := v.extractLsb' 0 8 } else s.raise .cfgerr

/-- A CMD write (R126): the command the word encodes, or ILLCMD and nothing else (R127). -/
def runCommand (s : State) (w : Word) : Host.Outcome State Fault Refusal :=
  match decode w with
  | .ok i => exec i s
  | .error _ => .next (s.raise .illcmd)

/-- `csr_write(addr, v)` (R123). -/
def State.writeCsr (s : State) (v : Word) : Csr → Host.Outcome State Fault Refusal
  | .cmd => runCommand s v
  | .status => .next (s.clearFlags v)
  | .rangeMin => .next { s with rangeMin := v.extractLsb' 0 16 }
  | .rangeMax => .next { s with rangeMax := v.extractLsb' 0 16 }
  | .mode => .next { s with autoMin := v.getLsbD 0, autoMax := v.getLsbD 1 }
  | .palsel => .next (s.writePalsel v)
  | .dropFrame => .next s
  | .dropTotal => .next s
  | .frames => .next s
  | .effMin => .next s
  | .effMax => .next s
  | .geom => .next s
  | .npal => .next s
  | .reserved34 => .next s
  | .reserved38 => .next s
  | .reserved3C => .next s

/-- Give a response after all the state changes of an operation are made (R126). -/
def thenRespond (r : Response) : Host.Outcome State Fault Refusal → Host.Outcome State Fault Refusal
  | .next t => .next (t.respond r)
  | .fault f => .fault f
  | .refused f => .refused f

/-- `MemWrite(addr, n, v)` (R121): ERR for an access that is not accepted or a read-only window; a CSR write or one shelf
byte otherwise. -/
def busWrite (s : State) (addr : Addr) (d : BusData) : Host.Outcome State Fault Refusal :=
  let a := addr.toNat
  match accepted a d.width with
  | none => .next (s.respond .err)
  | some g =>
    match g.window with
    | .csr => thenRespond .ok (s.writeCsr d.toWord (Csr.at a))
    | .shelf =>
      .next ({ s with shelf := s.shelf.setShelfByte (shelfSlotOf a) (shelfByteOf a) (d.toWord.extractLsb' 0 8) }.respond .ok)
    | .raw => .next (s.respond .err)
    | .int => .next (s.respond .err)
    | .col => .next (s.respond .err)
    | .pal => .next (s.respond .err)

/-- One host operation on the CORE (R132). A hard reset is not a bus operation and has no response (R107). -/
def hostOperation (op : HostOp) (s : State) : Host.Outcome State Fault Refusal :=
  match op with
  | .read addr w => .next (s.respond (busRead s addr w))
  | .write addr d => busWrite s addr d
  | .hreset => .next s.hardReset

/-- The next host operation, if the host has one; the CORE never acts on its own (R8). -/
def hostStep (s : State) : Host.Outcome State Fault Refusal :=
  match s.script with
  | [] => .next s
  | op :: rest => hostOperation op { s with script := rest }

end Sys2Proof.Machine
end

