-- ==== Sys2Proof/Machine/Step.lean ====
section
/-! DEFINITION. One step of the machine: one host operation, performed whole (spec/00_scope.md R7,
spec/20_memory.md R74), and where a command stands to be run next. -/

namespace Sys2Proof.Machine

/-- One step (R7, R132). -/
def step (s : State) : Host.Outcome State Fault Refusal := hostStep s

/-- The host's next operation is the 32-bit write of this command word to CMD, at address 0 (R23, R100). -/
def State.withFetchWord (s : State) (nbits w : Nat) : State :=
  { s with script := .write 0#19 (.b32 (tableWord nbits w)) :: s.script }

end Sys2Proof.Machine
end

