-- ==== Sys2Proof/Machine/Script.lean ====
section
/-! DEFINITION. The script lines of spec/30_encoding.md R107 and the pseudo-operations of R108, as the host operations
they stand for. They add nothing to the machine: a script is a way to write `State.script`. -/

namespace Sys2Proof.Machine

/-- A script line (R107). The seven command lines are one constructor, with the command. -/
inductive ScriptLine where
  /-- `WR <csr>, <v>` -/
  | wr (r : Csr) (v : Word)
  /-- `RD <csr>` -/
  | rd (r : Csr)
  /-- `WB <addr>, <b>` -/
  | wb (addr : Addr) (b : Byte)
  /-- `RB <addr>` -/
  | rb (addr : Addr)
  /-- `RH <addr>` -/
  | rh (addr : Addr)
  /-- `NOP`, `SRST`, `RECV <s>, <L>`, `ASM`, `SCALE`, `MAP`, `FRAME` -/
  | command (i : Instr)
  /-- `HRESET` -/
  | hreset
  deriving DecidableEq, Repr

/-- The aperture address of a CSR. -/
def Csr.addr (r : Csr) : Addr := BitVec.ofNat 19 r.offset

/-- The host operation of a script line (R107). -/
def ScriptLine.op : ScriptLine → HostOp
  | .wr r v => .write r.addr (.b32 v)
  | .rd r => .read r.addr .word
  | .wb addr b => .write addr (.b8 b)
  | .rb addr => .read addr .byte
  | .rh addr => .read addr .half
  | .command i => .write Csr.cmd.addr (.b32 (encode i))
  | .hreset => .hreset

/-! ### Pseudo-operations (R108) -/

/-- `RECV <s>`: with the length 9840. -/
def Script.recv (s : Nat) : List ScriptLine := [.command (.recv s Config.segBytes)]

/-- `PUT <s>, <i>, <v>`: sample word `i` of slot `s`, big-endian. -/
def Script.put (s i : Nat) (v : Half) : List ScriptLine :=
  [.wb (BitVec.ofNat 19 (shelfAddr s (2 * i))) (v.extractLsb' 8 8),
   .wb (BitVec.ofNat 19 (shelfAddr s (2 * i + 1))) (v.extractLsb' 0 8)]

/-- The lines for packet `j` of LOADSEG: the two header words, then the words 2 to 81. -/
def Script.loadPacket (s : Nat) (h : Half) (f : Nat → Nat → Half) (j : Nat) : List ScriptLine :=
  Script.put s (sampleIndex j 0) h ++ Script.put s (sampleIndex j 1) h ++
    (List.range Config.pktSamples).flatMap fun m =>
      Script.put s (sampleIndex j (m + Config.hdrWords)) (f s (sampleIndex j (m + Config.hdrWords)))

/-- `LOADSEG <s>, <h>, f`. -/
def Script.loadSeg (s : Nat) (h : Half) (f : Nat → Nat → Half) : List ScriptLine :=
  (List.range Config.packetsPerSegment).flatMap (Script.loadPacket s h f)

/-- `FILLSEG <s>, <h>, <v>`. -/
def Script.fillSeg (s : Nat) (h v : Half) : List ScriptLine := Script.loadSeg s h fun _ _ => v

/-- `CLRFLAGS`. -/
def Script.clrFlags : List ScriptLine := [.wr .status 0x00007F00#32]

/-- `CYCLE <h>, <v>`: fill and commit the four slots. -/
def Script.cycle (h v : Half) : List ScriptLine :=
  (List.range Config.segments).flatMap fun s => Script.fillSeg s h v ++ Script.recv s

/-- The host issues these script lines next. -/
def State.issue (s : State) (lines : List ScriptLine) : State :=
  { s with script := lines.map ScriptLine.op ++ s.script }

end Sys2Proof.Machine
end

