-- ==== Sys2Proof/Safety.lean ====
section
/-! DEFINITION. What a safe run of the CORE is: every host operation has an outcome (spec/40_bus_and_control.md R132), and
the invariants of spec/10_state.md R51 hold, with the canonical form of the memories beside them. -/

namespace Sys2Proof.Machine

/-- Is this the aperture address of a shelf byte (R62)? -/
def shelfHolds (a : Nat) : Bool :=
  decide (0x10000 ≤ a) && decide (a < 0x20000) && decide (shelfByteOf a < Config.segBytes)

/-- Is this the aperture address of a byte of a RAW cell (R62)? -/
def rawHolds (a : Nat) : Bool := decide (0x20000 ≤ a) && decide (a < 0x20000 + 38400)

/-- Is this the aperture address of an INT cell (R62)? -/
def intHolds (a : Nat) : Bool := decide (0x30000 ≤ a) && decide (a < 0x30000 + 19200)

/-- Is this the aperture address of a COL byte (R62)? -/
def colHolds (a : Nat) : Bool := decide (0x40000 ≤ a) && decide (a < 0x40000 + 57600)

/-- A memory in its canonical form that lists addresses of its own window only. -/
abbrev Memory.sound (m : Memory) (holds : Nat → Bool) : Prop := m.wf ∧ ∀ c ∈ m, holds c.1 = true

/-- The four memories are canonical and hold nothing outside their windows. -/
structure State.MemoryInv (s : State) : Prop where
  shelf : s.shelf.sound shelfHolds
  raw : s.raw.sound rawHolds
  int : s.int.sound intHolds
  col : s.col.sound colHolds

/-- The invariants of R51. -/
structure State.RegisterInv (s : State) : Prop where
  /-- `drop_frame <= 240` -/
  dropFrame : s.dropFrame.toNat ≤ 240
  /-- `palsel < N_PALETTES` -/
  palsel : s.palsel.toNat < Config.nPalettes
  /-- if `colv` then `intv` -/
  colv : s.colv = true → s.intv = true
  /-- if `intv` then `rawv` -/
  intv : s.intv = true → s.rawv = true
  /-- `palclamp = false` (R184) -/
  palclamp : s.palclamp = false

/-- The invariant of the machine. -/
structure State.Inv (s : State) : Prop where
  memory : s.MemoryInv
  registers : s.RegisterInv

/-- The step has an outcome and the CORE goes on (R132). -/
def State.Completes (s : State) : Prop := ∃ t, step s = .next t

end Sys2Proof.Machine
end

