-- ==== Sys2Proof/Certificates/Slice0/Obligations.lean ====
section
/-! DEFINITION. The statements for the provers. Each formalises rules of spec/; its entry in OBLIGATIONS.json names them. -/

open Sys2Proof Sys2Proof.Machine

/-! ### Encoding -/

/-- Decoding the word of a well-formed command gives the command back, with every operand at every value (R101 to R105). -/
def Obligations.DecodeOfEncodeIsTheCommand : Prop :=
  ∀ i : Instr, i.WellFormed → decode (encode i) = .ok i

/-- A legal word is the word of the command it decodes to, and of no other: no bit of it is dropped (R103, R105). -/
def Obligations.EncodeOfDecodeIsTheWord : Prop :=
  ∀ (w : Word) (i : Instr), decode w = .ok i → i.WellFormed ∧ encode i = w

/-- R104: which words are illegal, what writing one does, and that a RECV of any length is legal. -/
def Obligations.IllegalWordsAreExactlyTheReservedOnes : Prop :=
  (∀ w : Word, (∃ e, decode w = .error e) ↔
    (7 ≤ (w.extractLsb' 0 4).toNat ∨
      ((w.extractLsb' 0 4).toNat = 2 ∧ (w.extractLsb' 6 2 ≠ 0#2 ∨ w.extractLsb' 24 8 ≠ 0#8)) ∨
      ((w.extractLsb' 0 4).toNat ∈ [0, 1, 3, 4, 5, 6] ∧ w.extractLsb' 4 28 ≠ 0#28))) ∧
  (∀ (s : State) (rest : List HostOp) (w : Word) (e : Illegal), decode w = .error e →
    s.script = .write 0#19 (.b32 w) :: rest →
    step s = .next { s with script := rest, illcmd := true, responses := .ok :: s.responses }) ∧
  ∀ seg len : Nat, seg < 4 → len < 65536 → decode (BitVec.ofNat 32 (2 + 16 * seg + 256 * len)) = .ok (.recv seg len)

/-- Words written out from the encodings of R101 and R103 decode to their commands. -/
def Obligations.WrittenOutWordsDecode : Prop :=
  decode 0x00000000#32 = .ok .nop ∧ decode 0x00000001#32 = .ok .srst ∧ decode 0x00267022#32 = .ok (.recv 2 9840) ∧
  decode 0x00FFFF32#32 = .ok (.recv 3 65535) ∧ decode 0x00000003#32 = .ok .asm ∧ decode 0x00000004#32 = .ok .scale ∧
  decode 0x00000005#32 = .ok .map ∧ decode 0x00000006#32 = .ok .frame

/-! ### The step -/

/-- A CMD write of a word that decodes to a command runs that command on the state without the operation, and then answers
OK (R126); `withFetchWord` is such a write. -/
def Obligations.StepRunsTheDecodedCommand : Prop :=
  (∀ (s t : State) (rest : List HostOp) (w : Word) (i : Instr), s.script = .write 0#19 (.b32 w) :: rest →
    decode w = .ok i → exec i { s with script := rest } = .next t →
    step s = .next { t with responses := .ok :: t.responses }) ∧
  ∀ (s t : State) (w : Word) (i : Instr), decode w = .ok i → exec i s = .next t →
    step (s.withFetchWord 32 w.toNat) = .next { t with responses := .ok :: t.responses }

/-- With no host operation to come, a step changes nothing (R8; the list of operations is the model's, log entry 1). -/
def Obligations.IdleCoreNeverActs : Prop :=
  ∀ s : State, s.script = [] → step s = .next s

/-- Every step from every state has a next state: no fault, no refusal, no stuck state (R132). -/
def Obligations.EveryStepHasANextState : Prop :=
  ∀ s : State, s.Completes

/-- One host operation is taken; a bus operation is answered exactly once, a hard reset not at all (R61, R126, R107; the two
lists are the model's, log entry 1). -/
def Obligations.EachBusOperationIsAnsweredOnce : Prop :=
  ∀ (s : State) (op : HostOp) (rest : List HostOp), s.script = op :: rest →
    ∃ t, step s = .next t ∧ t.script = rest ∧
      (op = .hreset → t.responses = s.responses) ∧ (op ≠ .hreset → ∃ r, t.responses = r :: s.responses)

/-! ### Reset and the invariant -/

/-- The values of R231, column by column: power-on, hard reset, SRST. An unspecified memory asks for nothing. That a hard
reset is a step, has no response (R107) and keeps the host's two lists is the model's reading (log entries 1 and 7). -/
def Obligations.ResetValues : Prop :=
  (State.reset.prime = true ∧ State.reset.segv = 0#4 ∧ State.reset.rawv = false ∧ State.reset.intv = false ∧
    State.reset.colv = false ∧ (∀ c, State.reset.flag c = false) ∧ State.reset.rangeMin = 0x0000#16 ∧
    State.reset.rangeMax = 0xFFFF#16 ∧ State.reset.autoMin = false ∧ State.reset.autoMax = false ∧
    State.reset.palsel = 0#8 ∧ State.reset.dropFrame = 0#16 ∧ State.reset.dropTotal = 0#32 ∧ State.reset.frames = 0#32 ∧
    State.reset.effMin = 0#16 ∧ State.reset.effMax = 0#16 ∧ State.reset.statusWord = 0x00000001#32) ∧
  (∀ (s : State) (rest : List HostOp), s.script = .hreset :: rest →
    step s = .next { State.reset with
      shelf := s.shelf, raw := s.raw, int := s.int, col := s.col, script := rest, responses := s.responses }) ∧
  ∀ s : State, exec .srst s = .next { s with prime := true, segv := 0#4 }

/-- The machine's invariant holds after reset. -/
def Obligations.ResetMeetsTheInvariant : Prop := State.reset.Inv

/-- Every step keeps the invariant: those of R51 (DROP_FRAME at most 240, PALSEL legal, COLV implies INTV implies RAWV,
PALCLAMP clear) and the canonical form of the four memories inside their windows (the model's own, log entry 3). -/
def Obligations.EveryStepKeepsTheInvariant : Prop :=
  ∀ s t : State, s.Inv → step s = .next t → t.Inv

/-! ### Bus reads and writes -/

/-- A read changes no state: it is answered, and nothing else (R73, R120). -/
def Obligations.ReadsChangeNothing : Prop :=
  ∀ (s : State) (rest : List HostOp) (addr : Addr) (w : Width), s.script = .read addr w :: rest →
    ∃ r, step s = .next { s with script := rest, responses := r :: s.responses }

/-- A read is answered ERR exactly when its width and address are none of the accepted ones (R64, R67). -/
def Obligations.ReadsErrExactlyOffTheMap : Prop :=
  ∀ (s : State) (rest : List HostOp) (addr : Addr) (w : Width), s.script = .read addr w :: rest →
    (step s = .next { s with script := rest, responses := .err :: s.responses } ↔
      ¬((w = .word ∧ addr.toNat < 0x40 ∧ addr.toNat % 4 = 0) ∨
        (w = .byte ∧ ∃ slot k, slot < 4 ∧ k < 9840 ∧ addr.toNat = 0x10000 + 0x4000 * slot + k) ∨
        (w = .half ∧ 0x20000 ≤ addr.toNat ∧ addr.toNat ≤ 0x295FF ∧ addr.toNat % 2 = 0) ∨
        (w = .byte ∧ 0x30000 ≤ addr.toNat ∧ addr.toNat ≤ 0x34AFF) ∨
        (w = .byte ∧ 0x40000 ≤ addr.toNat ∧ addr.toNat ≤ 0x4E0FF) ∨
        (w = .byte ∧ 0x50000 ≤ addr.toNat ∧ addr.toNat ≤ 0x502FF)))

/-- A write is answered ERR, and changes no state, exactly when it is neither an aligned word of the CSR window nor a shelf
byte: off the map, of a wrong width, misaligned, or to a read-only window (R64, R67). -/
def Obligations.WritesErrExactlyOffTheWritableMap : Prop :=
  ∀ (s : State) (rest : List HostOp) (addr : Addr) (d : BusData), s.script = .write addr d :: rest →
    (step s = .next { s with script := rest, responses := .err :: s.responses } ↔
      ¬((d.width = .word ∧ addr.toNat < 0x40 ∧ addr.toNat % 4 = 0) ∨
        (d.width = .byte ∧ ∃ slot k, slot < 4 ∧ k < 9840 ∧ addr.toNat = 0x10000 + 0x4000 * slot + k)))

/-- The value of a read of each cell of RAW, INT and COL, whatever the valid bits are, and of each byte of the selected
palette (R69 to R72). -/
def Obligations.WindowReadsGiveTheirCells : Prop :=
  (∀ (s : State) (rest : List HostOp) (r c : Nat), r < 120 → c < 160 →
    s.script = .read (BitVec.ofNat 19 (0x20000 + 2 * (160 * r + c))) .half :: rest →
    step s = .next { s with script := rest, responses := .value (.b16 (s.raw.rawCell r c)) :: s.responses }) ∧
  (∀ (s : State) (rest : List HostOp) (r c : Nat), r < 120 → c < 160 →
    s.script = .read (BitVec.ofNat 19 (0x30000 + 160 * r + c)) .byte :: rest →
    step s = .next { s with script := rest, responses := .value (.b8 (s.int.intCell r c)) :: s.responses }) ∧
  (∀ (s : State) (rest : List HostOp) (r c ch : Nat), r < 120 → c < 160 → ch < 3 →
    s.script = .read (BitVec.ofNat 19 (0x40000 + 3 * (160 * r + c) + ch)) .byte :: rest →
    step s = .next { s with script := rest, responses := .value (.b8 (s.col.colByte r c ch)) :: s.responses }) ∧
  ∀ (s : State) (rest : List HostOp) (k : Nat), k < 768 →
    s.script = .read (BitVec.ofNat 19 (0x50000 + k)) .byte :: rest →
    step s = .next { s with script := rest, responses := .value (.b8 (Config.palRom s.palsel k)) :: s.responses }

/-- R68: a byte write to the shelf window stores that byte and changes nothing else, SEGV included; a byte read returns it. -/
def Obligations.ShelfWindowStoresAndReadsBytes : Prop :=
  (∀ (s : State) (rest : List HostOp) (slot k : Nat) (b : Byte), slot < 4 → k < 9840 →
    s.script = .write (BitVec.ofNat 19 (0x10000 + 0x4000 * slot + k)) (.b8 b) :: rest →
    ∃ t, step s = .next t ∧ t.shelf.shelfByte slot k = b ∧
      (∀ a, a ≠ 0x10000 + 0x4000 * slot + k → t.shelf.read a = s.shelf.read a) ∧
      t = { s with shelf := t.shelf, script := rest, responses := .ok :: s.responses }) ∧
  ∀ (s : State) (rest : List HostOp) (slot k : Nat), slot < 4 → k < 9840 →
    s.script = .read (BitVec.ofNat 19 (0x10000 + 0x4000 * slot + k)) .byte :: rest →
    step s = .next { s with script := rest, responses := .value (.b8 (s.shelf.shelfByte slot k)) :: s.responses }

/-- Two memories in the canonical form that read the same everywhere are the same data (log entry 3: the form is the
model's). -/
def Obligations.CanonicalMemoriesAreDeterminedByTheirReads : Prop :=
  ∀ m n : Memory, m.wf → n.wf → (∀ a, m.read a = n.read a) → m = n

/-! ### CSR access and the flags -/

/-- R122: the value of a read of each CSR slot. -/
def Obligations.CsrReadValues : Prop :=
  ∀ (s : State) (rest : List HostOp) (r : Csr), s.script = .read (BitVec.ofNat 19 r.offset) .word :: rest →
    step s = .next { s with
      script := rest
      responses := .value (.b32 (match r with
        | .status => s.statusWord
        | .rangeMin => s.rangeMin.setWidth 32
        | .rangeMax => s.rangeMax.setWidth 32
        | .mode => BitVec.ofNat 32 (2 * s.autoMax.toNat + s.autoMin.toNat)
        | .palsel => s.palsel.setWidth 32
        | .dropFrame => s.dropFrame.setWidth 32
        | .dropTotal => s.dropTotal
        | .frames => s.frames
        | .effMin => s.effMin.setWidth 32
        | .effMax => s.effMax.setWidth 32
        | .geom => 0x007800A0#32
        | .npal => BitVec.ofNat 32 Config.nPalettes
        | .cmd | .reserved34 | .reserved38 | .reserved3C => 0#32)) :: s.responses }

/-- R124: the bits of the value a STATUS read returns, and that it is 1 after reset (whatever responses were given before). -/
def Obligations.StatusReadsItsFields : Prop :=
  (∀ (s : State) (rest : List HostOp), s.script = .read 0x00004#19 .word :: rest →
    ∃ v : Word, step s = .next { s with script := rest, responses := .value (.b32 v) :: s.responses } ∧
      v.getLsbD 0 = s.prime ∧ (∀ k < 4, v.getLsbD (1 + k) = s.segv.getLsbD k) ∧ v.getLsbD 5 = s.rawv ∧
      v.getLsbD 6 = s.intv ∧ v.getLsbD 7 = s.colv ∧ v.getLsbD 8 = s.dropped ∧ v.getLsbD 9 = s.degen ∧
      v.getLsbD 10 = s.palclamp ∧ v.getLsbD 11 = s.lenerr ∧ v.getLsbD 12 = s.seqerr ∧ v.getLsbD 13 = s.illcmd ∧
      v.getLsbD 14 = s.cfgerr ∧ ∀ k, 15 ≤ k → v.getLsbD k = false) ∧
  ∀ (rest : List HostOp), step { State.reset with script := .read 0x00004#19 .word :: rest } =
    .next { State.reset with script := rest, responses := .value (.b32 0x00000001#32) :: State.reset.responses }

/-- R125: a STATUS write clears the sticky flags whose bits are 1 and ignores every other bit. -/
def Obligations.StatusWriteClearsSelectedFlags : Prop :=
  ∀ (s : State) (rest : List HostOp) (v : Word), s.script = .write 0x00004#19 (.b32 v) :: rest →
    ∃ t, step s = .next t ∧
      (∀ c : Condition, t.flag c = if v.getLsbD c.code = true then false else s.flag c) ∧
      t = { s with
        dropped := t.dropped, degen := t.degen, palclamp := t.palclamp, lenerr := t.lenerr, seqerr := t.seqerr,
        illcmd := t.illcmd, cfgerr := t.cfgerr, script := rest, responses := .ok :: s.responses }

/-- The writes of RANGE_MIN, RANGE_MAX, MODE and PALSEL take their fields, ignore the other bits, and recompute nothing; an
illegal palette id changes nothing but CFGERR (R123, R28). -/
def Obligations.ConfigurationWritesTakeTheirFieldsOnly : Prop :=
  (∀ (s : State) (rest : List HostOp) (v : Word), s.script = .write 0x00008#19 (.b32 v) :: rest →
    step s = .next { s with rangeMin := v.extractLsb' 0 16, script := rest, responses := .ok :: s.responses }) ∧
  (∀ (s : State) (rest : List HostOp) (v : Word), s.script = .write 0x0000C#19 (.b32 v) :: rest →
    step s = .next { s with rangeMax := v.extractLsb' 0 16, script := rest, responses := .ok :: s.responses }) ∧
  (∀ (s : State) (rest : List HostOp) (v : Word), s.script = .write 0x00010#19 (.b32 v) :: rest →
    step s = .next { s with
      autoMin := v.getLsbD 0, autoMax := v.getLsbD 1, script := rest, responses := .ok :: s.responses }) ∧
  ∀ (s : State) (rest : List HostOp) (v : Word), s.script = .write 0x00014#19 (.b32 v) :: rest →
    step s = .next { s with
      palsel := if v.toNat % 256 < Config.nPalettes then BitVec.ofNat 8 v.toNat else s.palsel
      cfgerr := s.cfgerr || decide (Config.nPalettes ≤ v.toNat % 256)
      script := rest
      responses := .ok :: s.responses }

/-- A word write to a read-only or reserved CSR slot (offsets 0x18 to 0x3C) is answered OK and changes nothing (R123, R36). -/
def Obligations.ReadOnlyCsrWritesChangeNothing : Prop :=
  ∀ (s : State) (rest : List HostOp) (k : Nat) (v : Word), 0x18 ≤ k → k ≤ 0x3C → k % 4 = 0 →
    s.script = .write (BitVec.ofNat 19 k) (.b32 v) :: rest →
    step s = .next { s with script := rest, responses := .ok :: s.responses }

/-- A sticky flag falls only by a STATUS write whose bit of that flag is 1, or by a hard reset (R201). -/
def Obligations.StickyFlagsFallOnlyByClearOrReset : Prop :=
  ∀ (s t : State) (c : Condition), step s = .next t → s.flag c = true → t.flag c = false →
    (∃ v rest, s.script = .write 0x00004#19 (.b32 v) :: rest ∧ v.getLsbD c.code = true) ∨
    ∃ rest, s.script = .hreset :: rest

/-! ### Control commands and refusals -/

/-- R130: the word 0 is NOP, and NOP changes nothing in any state. -/
def Obligations.NopChangesNothing : Prop :=
  decode 0x00000000#32 = .ok .nop ∧ ∀ s : State, exec .nop s = .next s

/-- R131: the word 1 is SRST; SRST sets PRIME and clears SEGV; every memory, counter, bound, configuration register and flag keeps its value. -/
def Obligations.SrstSetsPrimeAndEmptiesTheShelf : Prop :=
  decode 0x00000001#32 = .ok .srst ∧
  ∀ s : State, ∃ t, exec .srst s = .next t ∧ t.prime = true ∧ (∀ k < 4, t.segv.getLsbD k = false) ∧
    t = { s with prime := t.prime, segv := t.segv }

/-- R128: a command whose precondition does not hold sets SEQERR and changes nothing else. -/
def Obligations.RefusedCommandsSetOnlySeqerr : Prop :=
  ∀ s : State,
    (s.segv ≠ 0b1111#4 → exec .asm s = .next { s with seqerr := true }) ∧
    (s.rawv = false → exec .scale s = .next { s with seqerr := true }) ∧
    (s.intv = false → exec .map s = .next { s with seqerr := true }) ∧
    (s.segv ≠ 0b1111#4 → exec .frame s = .next { s with seqerr := true })

/-! ### The assembler -/

/-- R141: RECV commits its slot when LEN is 9840, else un-commits it and raises LENERR; the other slots, the shelf bytes and
everything else are as before. Its word is `2 + 16*SEG + 256*LEN`. -/
def Obligations.RecvCommitsItsSlot : Prop :=
  ∀ (seg len : Nat) (s : State), (Instr.recv seg len).WellFormed →
    decode (BitVec.ofNat 32 (2 + 16 * seg + 256 * len)) = .ok (.recv seg len) ∧
    ∃ t, exec (.recv seg len) s = .next t ∧
      (∀ k < 4, t.segv.getLsbD k = if k = seg then decide (len = 9840) else s.segv.getLsbD k) ∧
      t.lenerr = (s.lenerr || decide (len ≠ 9840)) ∧
      t = { s with segv := t.segv, lenerr := t.lenerr }

/-- R143, R191: the first complete cycle after reset or SRST clears PRIME and SEGV and changes nothing else, under ASM and
under FRAME alike. -/
def Obligations.PrimingCycleIsConsumed : Prop :=
  ∀ s : State, s.segv = 0b1111#4 → s.prime = true →
    exec .asm s = .next { s with prime := false, segv := 0#4 } ∧
    exec .frame s = .next { s with prime := false, segv := 0#4 }

/-- A delivered ASM puts each sample of packet `j` of segment `seg` whose packet has no zero word up to it at row
`j/2 + 30*seg`, column `p - 2 + 80*(j mod 2)`, leaves the cells a zero cut off as they were, changes no byte outside the RAW
window, and changes no other memory and no configuration, bound or cycle state but what R149 names (R144, R147, R150). -/
def Obligations.DeliveredAssemblyPlacesItsSamples : Prop :=
  ∀ s : State, s.segv = 0b1111#4 → s.prime = false →
    ∃ t, exec .asm s = .next t ∧
      (∀ seg j p, seg < 4 → j < 60 → 2 ≤ p → p < 82 →
        (∀ q, 2 ≤ q → q ≤ p → s.shelf.sampleWord seg (82 * j + q) ≠ 0#16) →
        t.raw.rawCell (j / 2 + 30 * seg) (p - 2 + 80 * (j % 2)) = s.shelf.sampleWord seg (82 * j + p)) ∧
      (∀ seg j p, seg < 4 → j < 60 → 2 ≤ p → p < 82 →
        (∃ q, 2 ≤ q ∧ q ≤ p ∧ s.shelf.sampleWord seg (82 * j + q) = 0#16) →
        t.raw.rawCell (j / 2 + 30 * seg) (p - 2 + 80 * (j % 2)) =
          s.raw.rawCell (j / 2 + 30 * seg) (p - 2 + 80 * (j % 2))) ∧
      (∀ a, rawHolds a = false → t.raw.read a = s.raw.read a) ∧
      t = { s with
        segv := 0#4, rawv := true, intv := false, colv := false, dropped := t.dropped, dropFrame := t.dropFrame,
        dropTotal := t.dropTotal, frames := t.frames, raw := t.raw }

/-- A delivered ASM counts one for each packet with a zero sample word: DROP_FRAME is the count, DROP_TOTAL grows by it and
FRAMES by 1 (modulo 2^32), DROPPED is raised when it is not 0; RAWV is set, INTV, COLV and SEGV are cleared, PRIME stays 0
(R146, R149). -/
def Obligations.DeliveredAssemblyCountsTruncatedPackets : Prop :=
  ∀ s : State, s.segv = 0b1111#4 → s.prime = false →
    ∃ t, exec .asm s = .next t ∧
      t.dropFrame.toNat = ((Finset.range 4 ×ˢ Finset.range 60).filter fun (sj : Nat × Nat) =>
        ∃ m : Nat, m < 80 ∧ s.shelf.sampleWord sj.1 (82 * sj.2 + 2 + m) = 0#16).card ∧
      t.dropTotal.toNat = (s.dropTotal.toNat + t.dropFrame.toNat) % 2 ^ 32 ∧
      t.frames.toNat = (s.frames.toNat + 1) % 2 ^ 32 ∧
      t.dropped = (s.dropped || decide (t.dropFrame.toNat ≠ 0)) ∧
      t.rawv = true ∧ t.intv = false ∧ t.colv = false ∧ t.segv = 0#4 ∧ t.prime = false

/-- R148, items 1 and 2: every sample index lands inside the frame, and each cell is reached by exactly one of them, the
one the inverse formulas give. -/
def Obligations.PlacementIsABijectionOntoTheFrame : Prop :=
  (∀ seg j p, seg < 4 → j < 60 → 2 ≤ p → p < 82 →
    placeRow seg (82 * j + p) < 120 ∧ placeColumn (82 * j + p) < 160) ∧
  ∀ r c, r < 120 → c < 160 → ∀ seg j p, seg < 4 → j < 60 → 2 ≤ p → p < 82 →
    ((placeRow seg (82 * j + p) = r ∧ placeColumn (82 * j + p) = c) ↔
      (seg = r / 30 ∧ j = 2 * (r % 30) + c / 80 ∧ p = c % 80 + 2))

/-- No command's result depends on a header byte (R94): two states that differ only in bytes 0 to 3 of packets, or outside
the slots, go to states that differ only there. -/
def Obligations.HeaderBytesNeverMatter : Prop :=
  ∀ (i : Instr) (s : State) (shelf' : Memory),
    (∀ slot j k, slot < 4 → j < 60 → 4 ≤ k → k < 164 →
      shelf'.shelfByte slot (164 * j + k) = s.shelf.shelfByte slot (164 * j + k)) →
    ∃ t, exec i s = .next t ∧ exec i { s with shelf := shelf' } = .next { t with shelf := shelf' }

/-- PUT (R108) is two bus writes after which the sample word has the value, big-endian (R65), and no other byte of the shelf
has changed. -/
def Obligations.PutStoresASampleWord : Prop :=
  ∀ (s : State) (seg i : Nat) (v : Half), seg < 4 → i < 4920 →
    ∃ t, Sys2Proof.core.run 2 (s.issue (Script.put seg i v)) = .next t ∧
      t.shelf.sampleWord seg i = v ∧
      (∀ a, a ≠ shelfAddr seg (2 * i) → a ≠ shelfAddr seg (2 * i + 1) → t.shelf.read a = s.shelf.read a) ∧
      t = { s with shelf := t.shelf, responses := .ok :: .ok :: s.responses }

/-! ### The scaler -/

/-- An executed SCALE writes the effective bounds and every INT cell: 0 for a degenerate range, else by the ordered tests and
the floor quotient; it sets INTV, clears COLV, raises DEGEN for equal bounds only, and changes nothing else (R160, R163,
R165, R168). -/
def Obligations.ScaleComputesEveryIntensity : Prop :=
  ∀ s : State, s.rawv = true →
    ∃ t, exec .scale s = .next t ∧
      t.effMin = (if s.autoMin = true then s.raw.track.tmin else s.rangeMin) ∧
      t.effMax = (if s.autoMax = true then s.raw.track.tmax else s.rangeMax) ∧
      (∀ r c, r < 120 → c < 160 →
        (t.int.intCell r c).toNat =
          if t.effMax = t.effMin then 0
          else if (s.raw.rawCell r c).toNat ≤ t.effMin.toNat then 0
          else if t.effMax.toNat < (s.raw.rawCell r c).toNat then 255
          else ((s.raw.rawCell r c).toNat - t.effMin.toNat) * 255 / (t.effMax.toNat - t.effMin.toNat)) ∧
      (∀ a, intHolds a = false → t.int.read a = s.int.read a) ∧
      t = { s with
        effMin := t.effMin, effMax := t.effMax, int := t.int, intv := true, colv := false,
        degen := s.degen || decide (t.effMax = t.effMin) }

/-- R162: with a non-zero cell the trackers end at the least and the greatest non-zero cell value; with none they keep their
start values. -/
def Obligations.TrackerFindsLeastAndGreatestNonZeroCell : Prop :=
  ∀ m : Memory,
    ((∃ r c, r < 120 ∧ c < 160 ∧ m.rawCell r c ≠ 0#16) →
      IsLeast { n | ∃ r c, r < 120 ∧ c < 160 ∧ m.rawCell r c ≠ 0#16 ∧ n = (m.rawCell r c).toNat } m.track.tmin.toNat ∧
      IsGreatest { n | ∃ r c, r < 120 ∧ c < 160 ∧ m.rawCell r c ≠ 0#16 ∧ n = (m.rawCell r c).toNat }
        m.track.tmax.toNat) ∧
    ((∀ r c, r < 120 → c < 160 → m.rawCell r c = 0#16) → m.track.tmin = 0xFFFF#16 ∧ m.track.tmax = 0x0000#16)

/-- R169: the four properties the source requires of the scaler. -/
def Obligations.ScalingIsMonotoneClampedAndTotal : Prop :=
  (∀ v w emin emax : Half, emin ≠ emax → v ≤ w → scalePx v emin emax ≤ scalePx w emin emax) ∧
  (∀ v emin emax : Half, emin < emax →
    (v ≤ emin → scalePx v emin emax = 0#8) ∧ (emax < v → scalePx v emin emax = 255#8)) ∧
  (∀ s : State, s.rawv = true → s.upperBound = s.lowerBound →
    ∃ t, exec .scale s = .next t ∧ ∀ r c, r < 120 → c < 160 → t.int.intCell r c = 0#8) ∧
  ∀ s : State, s.rawv = true →
    ∃ t, exec .scale s = .next t ∧ ∀ r c, r < 120 → c < 160 → s.raw.rawCell r c = 0#16 → t.int.intCell r c = 0#8

/-- R166: an inverted range is a threshold at the lower bound and is not degenerate; with both bounds tracked it occurs only
when every cell is zero, and then the INT grid is all zero. -/
def Obligations.InvertedRangeIsAThreshold : Prop :=
  ∀ s : State, s.rawv = true → s.upperBound < s.lowerBound →
    ∃ t, exec .scale s = .next t ∧ t.degen = s.degen ∧
      (∀ r c, r < 120 → c < 160 →
        t.int.intCell r c = if s.raw.rawCell r c ≤ s.lowerBound then 0#8 else 255#8) ∧
      (s.autoMin = true → s.autoMax = true → ∀ r c, r < 120 → c < 160 →
        s.raw.rawCell r c = 0#16 ∧ t.int.intCell r c = 0#8)

/-! ### The colormap -/

/-- An executed MAP gives channel `ch` of every pixel byte `3*I + ch` of the selected palette, an offset inside the palette,
where `I` is the pixel's own INT cell; it sets COLV, raises nothing, and changes nothing else (R180, R182 to R184). -/
def Obligations.MapLooksUpEveryPixel : Prop :=
  ∀ s : State, s.intv = true →
    ∃ t, exec .map s = .next t ∧
      (∀ r c ch, r < 120 → c < 160 → ch < 3 →
        3 * (s.int.intCell r c).toNat + ch < 768 ∧
        t.col.colByte r c ch = Config.palRom s.palsel (3 * (s.int.intCell r c).toNat + ch)) ∧
      (∀ a, colHolds a = false → t.col.read a = s.col.read a) ∧
      t = { s with col := t.col, colv := true }

/-! ### FRAME -/

/-- R192: a delivered FRAME is ASM, SCALE, MAP one after another, none of them refused, after which RAWV, INTV and COLV are 1
and SEGV is 0; a priming or refused FRAME is the ASM. -/
def Obligations.FrameIsAssembleScaleMap : Prop :=
  (∀ s : State, s.segv = 0b1111#4 → s.prime = false →
    ∃ a b t, exec .asm s = .next a ∧ exec .scale a = .next b ∧ exec .map b = .next t ∧ exec .frame s = .next t ∧
      a.rawv = true ∧ b.intv = true ∧ t.rawv = true ∧ t.intv = true ∧ t.colv = true ∧ t.segv = 0#4) ∧
  (∀ s : State, s.segv = 0b1111#4 → s.prime = true → exec .frame s = exec .asm s) ∧
  ∀ s : State, s.segv ≠ 0b1111#4 → exec .frame s = exec .asm s

/-! ### Whole-machine rules -/

/-- No command writes the shelf or a configuration register, clears a sticky flag, or touches the host's side (R129). -/
def Obligations.CommandsKeepShelfConfigurationAndFlags : Prop :=
  ∀ (i : Instr) (s : State), ∃ t, exec i s = .next t ∧
    t.shelf = s.shelf ∧ t.rangeMin = s.rangeMin ∧ t.rangeMax = s.rangeMax ∧ t.autoMin = s.autoMin ∧
    t.autoMax = s.autoMax ∧ t.palsel = s.palsel ∧ (∀ c, s.flag c = true → t.flag c = true) ∧
    t.script = s.script ∧ t.responses = s.responses

/-- FRAMES, DROP_FRAME and DROP_TOTAL change only by a delivered ASM or FRAME, or by a hard reset (R211, R231). -/
def Obligations.CountersChangeOnlyOnDelivery : Prop :=
  ∀ s t : State, step s = .next t →
    (t.frames ≠ s.frames ∨ t.dropFrame ≠ s.dropFrame ∨ t.dropTotal ≠ s.dropTotal) →
    (∃ w rest, s.script = .write 0#19 (.b32 w) :: rest ∧ (decode w = .ok .asm ∨ decode w = .ok .frame) ∧
      s.segv = 0b1111#4 ∧ s.prime = false) ∨
    ∃ rest, s.script = .hreset :: rest

/-- A step never makes a RAW cell zero: a cell it changes is not zero after it (R170). -/
def Obligations.RawCellsAreNeverClearedToZero : Prop :=
  ∀ (s t : State) (r c : Nat), r < 120 → c < 160 → step s = .next t →
    t.raw.rawCell r c ≠ s.raw.rawCell r c → t.raw.rawCell r c ≠ 0#16

/-- The grids are written only by their commands: RAW by a delivered ASM or FRAME, INT by SCALE or FRAME, COL by MAP or FRAME
(R43 to R45); the host's other operations, a hard reset among them, leave them as they are. -/
def Obligations.GridsAreWrittenOnlyByTheirCommands : Prop :=
  ∀ s t : State, step s = .next t →
    (t.raw ≠ s.raw → ∃ w rest, s.script = .write 0#19 (.b32 w) :: rest ∧ s.segv = 0b1111#4 ∧ s.prime = false ∧
      (decode w = .ok .asm ∨ decode w = .ok .frame)) ∧
    (t.int ≠ s.int → ∃ w rest, s.script = .write 0#19 (.b32 w) :: rest ∧
      (decode w = .ok .scale ∨ decode w = .ok .frame)) ∧
    (t.col ≠ s.col → ∃ w rest, s.script = .write 0#19 (.b32 w) :: rest ∧
      (decode w = .ok .map ∨ decode w = .ok .frame))
end

