-- ==== Sys2Proof/Laws/Loop.lean ====
section
/-! SUPPORT. Reasoning about the loops of the pseudocode: what every iteration keeps, and what a loop that gives each cell
its own value leaves. -/

namespace Sys2Proof.Machine

variable {α β : Type}

@[simp] theorem loop_zero (body : Nat → α → α) (x : α) : loop body 0 x = x := rfl

theorem loop_succ (body : Nat → α → α) (n : Nat) (x : α) : loop body (n + 1) x = body n (loop body n x) := rfl

/-- A claim indexed by the iterations done holds after the loop. -/
theorem loop_induct {body : Nat → α → α} {n : Nat} {x : α} (P : Nat → α → Prop) (h0 : P 0 x)
    (hs : ∀ k y, k < n → P k y → P (k + 1) (body k y)) : P n (loop body n x) := by
  induction n with
  | zero => exact h0
  | succ n ih => exact hs n _ (Nat.lt_succ_self n) (ih fun k y hk => hs k y (Nat.lt_succ_of_lt hk))

/-- What every iteration keeps, the loop keeps. -/
theorem loop_keeps {body : Nat → α → α} {n : Nat} {x : α} (P : α → Prop) (h0 : P x)
    (hs : ∀ k y, k < n → P y → P (body k y)) : P (loop body n x) :=
  loop_induct (fun _ => P) h0 hs

/-- What every cell's iteration keeps, the whole scan keeps. -/
theorem forCells_keeps {body : Nat → Nat → α → α} {x : α} (P : α → Prop) (h0 : P x)
    (hs : ∀ r c y, r < 120 → c < 160 → P y → P (body r c y)) : P (forCells body x) :=
  loop_keeps P h0 fun r _ hr hy => loop_keeps P hy fun c y' hc hy' => hs r c y' hr hc hy'

/-- A claim indexed by the row and column reached holds of the whole scan: it is carried from cell to cell along a row,
and from the end of a row to the start of the next. -/
theorem forCells_induct {body : Nat → Nat → α → α} {x : α} (P : Nat → Nat → α → Prop) (h0 : P 0 0 x)
    (hs : ∀ r c y, r < 120 → c < 160 → P r c y → P r (c + 1) (body r c y))
    (hrow : ∀ r y, r < 120 → P r 160 y → P (r + 1) 0 y) : P 120 0 (forCells body x) :=
  loop_induct (fun r => P r 0) h0 fun r _ hr hy =>
    hrow r _ hr (loop_induct (P r) hy fun c y' hc hy' => hs r c y' hr hc hy')

/-- A scan in which each cell's iteration gives that cell its value and leaves the other cells alone gives every cell its
value. -/
theorem forCells_sets {body : Nat → Nat → α → α} {x : α} (get : α → Nat → Nat → β) (val : Nat → Nat → β)
    (hset : ∀ r c y, r < 120 → c < 160 → get (body r c y) r c = val r c)
    (hother : ∀ r c y r' c', r < 120 → c < 160 → c' < 160 → ¬(r' = r ∧ c' = c) →
      get (body r c y) r' c' = get y r' c')
    {r c : Nat} (hr : r < 120) (hc : c < 160) : get (forCells body x) r c = val r c := by
  have key := forCells_induct (body := body) (x := x)
    (fun R C y => ∀ r c, c < 160 → (r < R ∨ (r = R ∧ c < C)) → get y r c = val r c)
    (by omega)
    (by
      intro R C y hR hC ih r c hc h
      by_cases hrc : r = R ∧ c = C
      · obtain ⟨rfl, rfl⟩ := hrc
        exact hset r c y hR hC
      · rw [hother R C y r c hR hC hc hrc]
        exact ih r c hc (by omega))
    (fun R y _ ih r c hc h => ih r c hc (by omega))
  exact key r c hc (by omega)

end Sys2Proof.Machine
end

