-- ==== Sys2Proof/Laws/Memory.lean ====
section
/-! SUPPORT. The laws of one memory: a read after a write, and the canonical form. No premise: they hold of every list. -/

namespace Sys2Proof.Machine

theorem Memory.read_nil (a : Nat) : Memory.read [] a = Config.powerOnByte a := rfl

theorem Memory.read_cons (k : Nat) (b : Byte) (m : Memory) (a : Nat) :
    Memory.read ((k, b) :: m) a = if k = a then b else m.read a := rfl

/-- An address that no entry lists reads as after power-on. -/
theorem Memory.read_unlisted {m : Memory} {a : Nat} (h : ∀ c ∈ m, c.1 ≠ a) : m.read a = Config.powerOnByte a := by
  induction m with
  | nil => rfl
  | cons c m ih =>
    obtain ⟨k, b⟩ := c
    rw [Memory.read_cons, if_neg (h (k, b) (by simp))]
    exact ih fun d hd => h d (by simp [hd])

/-- Dropping the entries of one address leaves every other address as it reads. -/
theorem Memory.read_filter {m : Memory} {a x : Nat} (h : x ≠ a) : Memory.read (m.filter fun c => c.1 ≠ a) x = m.read x := by
  induction m with
  | nil => rfl
  | cons c m ih =>
    obtain ⟨k, b⟩ := c
    by_cases hk : k = a
    · rw [List.filter_cons_of_neg (by simp [hk]), ih, Memory.read_cons, if_neg (by omega)]
    · rw [List.filter_cons_of_pos (by simp [hk]), Memory.read_cons, Memory.read_cons, ih]

theorem Memory.read_entry_append (a : Nat) (b : Byte) (m : Memory) (x : Nat) (h : ∀ c ∈ m, c.1 ≠ a) :
    Memory.read (Memory.entry a b ++ m) x = if x = a then b else m.read x := by
  unfold Memory.entry
  by_cases hb : b = Config.powerOnByte a
  · by_cases hx : x = a
    · simp [hb, hx, Memory.read_unlisted h]
    · simp [hb, hx]
  · by_cases hx : x = a
    · simp [hb, hx, Memory.read_cons]
    · simp [hb, hx, Memory.read_cons, Ne.symm hx]

/-- Placing the entry of an address that a list does not mention: that address reads the byte, every other as before. -/
theorem Memory.read_place (a : Nat) (b : Byte) (m : Memory) (x : Nat) (h : ∀ c ∈ m, c.1 ≠ a) :
    Memory.read (Memory.place a (Memory.entry a b) m) x = if x = a then b else m.read x := by
  induction m with
  | nil =>
    have := Memory.read_entry_append a b [] x (by simp)
    simpa [Memory.place] using this
  | cons c m ih =>
    obtain ⟨k, v⟩ := c
    have hm : ∀ c ∈ m, c.1 ≠ a := fun c hc => h c (by simp [hc])
    have hk : k ≠ a := h (k, v) (by simp)
    unfold Memory.place
    split
    · exact Memory.read_entry_append a b _ x h
    · rw [Memory.read_cons, Memory.read_cons, ih hm]
      by_cases hx : x = a
      · subst hx; simp [hk]
      · simp [hx]

/-- Everything a write does to what is read. -/
theorem Memory.read_write (m : Memory) (a : Nat) (b : Byte) (x : Nat) :
    (m.write a b).read x = if x = a then b else m.read x := by
  rw [Memory.write, Memory.read_place a b _ x (by simp)]
  split
  · rfl
  · next h => exact Memory.read_filter h

@[simp] theorem Memory.read_write_same (m : Memory) (a : Nat) (b : Byte) : (m.write a b).read a = b := by
  rw [Memory.read_write, if_pos rfl]

theorem Memory.read_write_other (m : Memory) {a x : Nat} (b : Byte) (h : x ≠ a) : (m.write a b).read x = m.read x := by
  rw [Memory.read_write, if_neg h]

/-! ### Which entries there are -/

theorem Memory.mem_entry {a : Nat} {b : Byte} {c : Host.Cell} (h : c ∈ Memory.entry a b) :
    c = (a, b) ∧ b ≠ Config.powerOnByte a := by
  unfold Memory.entry at h
  split at h
  · cases h
  · next hb => exact ⟨by simpa using h, hb⟩

theorem Memory.mem_place {a : Nat} {new m : Memory} {c : Host.Cell} :
    c ∈ Memory.place a new m ↔ c ∈ new ∨ c ∈ m := by
  induction m with
  | nil => simp [Memory.place]
  | cons d m ih =>
    obtain ⟨k, v⟩ := d
    unfold Memory.place
    split
    · simp
    · simp only [List.mem_cons, ih]
      tauto

/-- An entry after a write is the one written or one that was there, of another address. -/
theorem Memory.mem_write {m : Memory} {a : Nat} {b : Byte} {c : Host.Cell} (h : c ∈ m.write a b) :
    (c = (a, b) ∧ b ≠ Config.powerOnByte a) ∨ (c ∈ m ∧ c.1 ≠ a) := by
  rcases Memory.mem_place.mp h with h | h
  · exact .inl (Memory.mem_entry h)
  · exact .inr (by simpa using h)

/-- Placing an entry among other addresses keeps the order. -/
theorem Memory.pairwise_place {a : Nat} {b : Byte} {m : Memory} (hm : m.Pairwise fun c d => c.1 < d.1)
    (ha : ∀ c ∈ m, c.1 ≠ a) : (Memory.place a (Memory.entry a b) m).Pairwise fun c d => c.1 < d.1 := by
  induction m with
  | nil => unfold Memory.place Memory.entry; split <;> simp
  | cons d m ih =>
    obtain ⟨k, v⟩ := d
    obtain ⟨hk, hm'⟩ := List.pairwise_cons.mp hm
    have hka : k ≠ a := ha (k, v) (by simp)
    unfold Memory.place
    split
    · next hlt =>
      refine List.pairwise_append.mpr ⟨?_, hm, ?_⟩
      · unfold Memory.entry; split <;> simp
      · intro c hc d hd
        obtain ⟨rfl, -⟩ := Memory.mem_entry hc
        rcases List.mem_cons.mp hd with rfl | hd
        · exact hlt
        · exact lt_trans hlt (hk d hd)
    · next hlt =>
      refine List.pairwise_cons.mpr ⟨?_, ih hm' fun c hc => ha c (by simp [hc])⟩
      intro c hc
      rcases Memory.mem_place.mp hc with hc | hc
      · obtain ⟨rfl, -⟩ := Memory.mem_entry hc
        show k < a
        omega
      · exact hk c hc

/-- A write keeps the canonical form. -/
theorem Memory.wf_write {m : Memory} (h : m.wf) (a : Nat) (b : Byte) : (m.write a b).wf := by
  refine ⟨Memory.pairwise_place (h.1.filter _) (by simp), fun c hc => ?_⟩
  rcases Memory.mem_write hc with ⟨rfl, hb⟩ | ⟨hc, -⟩
  · exact hb
  · exact h.2 c hc

theorem Memory.wf_nil : Memory.wf [] := ⟨List.Pairwise.nil, by simp⟩

end Sys2Proof.Machine
end

