-- ==== Sys2Proof/Laws/Grid.lean ====
section
/-! SUPPORT. The laws of the cells of the four memories: a cell reads what was written to it, other cells and other
addresses are unchanged, the canonical form and the window are kept. -/

namespace Sys2Proof.Machine

/-! ### The two bytes of a sample or a RAW cell -/

theorem append_bytes (v : Half) : v.extractLsb' 8 8 ++ v.extractLsb' 0 8 = v := by
  apply BitVec.eq_of_getLsbD_eq
  intro i hi
  rw [BitVec.getLsbD_append]
  by_cases h : i < 8
  · simp [h]
  · have h' : i - 8 < 8 := by omega
    have h'' : 8 + (i - 8) = i := by omega
    simp [h, h', h'']

theorem toNat_append_bytes (x y : Byte) : (x ++ y : Half).toNat = 256 * x.toNat + y.toNat := by
  rw [BitVec.toNat_append, ← Nat.shiftLeft_add_eq_or_of_lt y.isLt, Nat.shiftLeft_eq]
  omega

/-! ### Shelf -/

theorem Memory.shelfByte_setShelfByte (m : Memory) (s k s' k' : Nat) (b : Byte) (hk : k < 0x4000) (hk' : k' < 0x4000) :
    (m.setShelfByte s k b).shelfByte s' k' = if s' = s ∧ k' = k then b else m.shelfByte s' k' := by
  rw [Memory.shelfByte, Memory.setShelfByte, Memory.read_write]
  have : shelfAddr s' k' = shelfAddr s k ↔ s' = s ∧ k' = k := by unfold shelfAddr; omega
  simp only [this]
  rfl

/-! ### RAW -/

/-- Everything a RAW write does to what is read. -/
theorem Memory.read_setRawCell (m : Memory) (r c : Nat) (v : Half) (a : Nat) :
    (m.setRawCell r c v).read a =
      if a = rawAddr r c + 1 then v.extractLsb' 8 8 else if a = rawAddr r c then v.extractLsb' 0 8 else m.read a := by
  rw [Memory.setRawCell, Memory.read_write, Memory.read_write]

@[simp] theorem Memory.rawCell_setRawCell_same (m : Memory) (r c : Nat) (v : Half) :
    (m.setRawCell r c v).rawCell r c = v := by
  rw [Memory.rawCell, Memory.read_setRawCell, Memory.read_setRawCell, if_pos rfl, if_neg (by omega), if_pos rfl]
  exact append_bytes v

theorem Memory.rawCell_setRawCell_other (m : Memory) {r c r' c' : Nat} (v : Half) (hc : c < 160) (hc' : c' < 160)
    (h : ¬(r' = r ∧ c' = c)) : (m.setRawCell r c v).rawCell r' c' = m.rawCell r' c' := by
  have h1 : rawAddr r' c' ≠ rawAddr r c := by unfold rawAddr; omega
  have h2 : rawAddr r' c' ≠ rawAddr r c + 1 := by unfold rawAddr; omega
  have h3 : rawAddr r' c' + 1 ≠ rawAddr r c := by unfold rawAddr; omega
  rw [Memory.rawCell, Memory.read_setRawCell, Memory.read_setRawCell, if_neg (by omega), if_neg h3, if_neg h2, if_neg h1]
  rfl

/-! ### INT -/

@[simp] theorem Memory.intCell_setIntCell_same (m : Memory) (r c : Nat) (b : Byte) :
    (m.setIntCell r c b).intCell r c = b := by
  rw [Memory.intCell, Memory.setIntCell, Memory.read_write_same]

theorem Memory.intCell_setIntCell_other (m : Memory) {r c r' c' : Nat} (b : Byte) (hc : c < 160) (hc' : c' < 160)
    (h : ¬(r' = r ∧ c' = c)) : (m.setIntCell r c b).intCell r' c' = m.intCell r' c' :=
  Memory.read_write_other m b (by unfold intAddr; omega)

/-! ### COL -/

theorem Memory.colByte_setColByte (m : Memory) (r c ch r' c' ch' : Nat) (b : Byte) (hc : c < 160) (hc' : c' < 160)
    (hch : ch < 3) (hch' : ch' < 3) :
    (m.setColByte r c ch b).colByte r' c' ch' = if r' = r ∧ c' = c ∧ ch' = ch then b else m.colByte r' c' ch' := by
  rw [Memory.colByte, Memory.setColByte, Memory.read_write]
  have : colAddr r' c' ch' = colAddr r c ch ↔ r' = r ∧ c' = c ∧ ch' = ch := by unfold colAddr; omega
  simp only [this]
  rfl

/-! ### Soundness: the canonical form, inside the window -/

theorem Memory.sound_write {m : Memory} {holds : Nat → Bool} (h : m.sound holds) {a : Nat} (ha : holds a = true) (b : Byte) :
    (m.write a b).sound holds := by
  refine ⟨Memory.wf_write h.1 a b, fun c hc => ?_⟩
  rcases Memory.mem_write hc with ⟨rfl, -⟩ | ⟨hc, -⟩
  · exact ha
  · exact h.2 c hc

theorem Memory.sound_nil (holds : Nat → Bool) : Memory.sound [] holds := ⟨Memory.wf_nil, by simp⟩

theorem shelfHolds_shelfAddr {s k : Nat} (hs : s < 4) (hk : k < 9840) : shelfHolds (shelfAddr s k) = true := by
  have h1 : 0x10000 ≤ shelfAddr s k := by unfold shelfAddr; omega
  have h2 : shelfAddr s k < 0x20000 := by unfold shelfAddr; omega
  have h3 : shelfByteOf (shelfAddr s k) = k := by unfold shelfByteOf shelfAddr; omega
  simp [shelfHolds, h1, h2, h3, hk]

theorem rawHolds_rawAddr {r c : Nat} (hr : r < 120) (hc : c < 160) :
    rawHolds (rawAddr r c) = true ∧ rawHolds (rawAddr r c + 1) = true := by
  unfold rawHolds rawAddr
  constructor <;> simp only [Bool.and_eq_true, decide_eq_true_eq] <;> omega

theorem intHolds_intAddr {r c : Nat} (hr : r < 120) (hc : c < 160) : intHolds (intAddr r c) = true := by
  unfold intHolds intAddr
  simp only [Bool.and_eq_true, decide_eq_true_eq]
  omega

theorem colHolds_colAddr {r c ch : Nat} (hr : r < 120) (hc : c < 160) (hch : ch < 3) : colHolds (colAddr r c ch) = true := by
  unfold colHolds colAddr
  simp only [Bool.and_eq_true, decide_eq_true_eq]
  omega

theorem Memory.sound_setRawCell {m : Memory} (h : m.sound rawHolds) {r c : Nat} (hr : r < 120) (hc : c < 160) (v : Half) :
    (m.setRawCell r c v).sound rawHolds :=
  Memory.sound_write (Memory.sound_write h (rawHolds_rawAddr hr hc).1 _) (rawHolds_rawAddr hr hc).2 _

theorem Memory.sound_setIntCell {m : Memory} (h : m.sound intHolds) {r c : Nat} (hr : r < 120) (hc : c < 160) (b : Byte) :
    (m.setIntCell r c b).sound intHolds :=
  Memory.sound_write h (intHolds_intAddr hr hc) _

theorem Memory.sound_setColByte {m : Memory} (h : m.sound colHolds) {r c ch : Nat} (hr : r < 120) (hc : c < 160)
    (hch : ch < 3) (b : Byte) : (m.setColByte r c ch b).sound colHolds :=
  Memory.sound_write h (colHolds_colAddr hr hc hch) _

end Sys2Proof.Machine
end

