-- ==== Sys2Proof/Laws/Assembler.lean ====
section
/-! SUPPORT. What a delivered assembly does: placement (spec/41_assembler.md R147, R148), the per-packet result (R151), the
RAW grid and the count it leaves. -/

namespace Sys2Proof.Machine

/-! ### Placement -/

theorem placeRow_sampleIndex {s j p : Nat} (hp : p < 82) : placeRow s (sampleIndex j p) = j / 2 + 30 * s := by
  unfold placeRow sampleIndex
  simp only [Config.packetWords, Config.segRows]
  omega

theorem placeColumn_sampleIndex {j p : Nat} (hp : p < 82) : placeColumn (sampleIndex j p) = p - 2 + 80 * (j % 2) := by
  unfold placeColumn sampleIndex
  simp only [Config.packetWords]
  omega

/-- Every sample of the four segments lands in the frame, so the range test of R147 never fails (R148). -/
theorem Memory.placeSample_eq {s j p : Nat} (hs : s < 4) (hj : j < 60) (hp : 2 ≤ p) (hp' : p < 82) (m : Memory) (v : Half) :
    m.placeSample s (sampleIndex j p) v = m.setRawCell (j / 2 + 30 * s) (p - 2 + 80 * (j % 2)) v := by
  unfold Memory.placeSample
  rw [placeRow_sampleIndex hp', placeColumn_sampleIndex hp', if_pos]
  simp only [Config.height, Config.width]
  omega

/-- The sample that reaches a cell is the one of `sourceSegment`, `sourcePacket` and `sourceWord` (R148). -/
theorem place_eq_iff_source {s j p r c : Nat} (hj : j < 60) (hp : 2 ≤ p) (hp' : p < 82) (hc : c < 160) :
    (r = j / 2 + 30 * s ∧ c = p - 2 + 80 * (j % 2)) ↔ (s = sourceSegment r ∧ j = sourcePacket r c ∧ p = sourceWord c) := by
  unfold sourceSegment sourcePacket sourceWord
  omega

/-! ### The per-packet result -/

/-- A packet is complete from word `p` on when none of the words left is zero. -/
theorem Memory.firstZero_writes (m : Memory) (s j : Nat) {left p q : Nat} (hq : p ≤ q) (hq' : q < p + left) :
    (m.firstZero s j left p).writes q = true ↔ ∀ p', p ≤ p' → p' ≤ q → m.sampleWord s (sampleIndex j p') ≠ 0#16 := by
  induction left generalizing p with
  | zero => omega
  | succ left ih =>
    unfold Memory.firstZero
    split
    · next h0 =>
      simp only [PacketResult.writes, decide_eq_true_eq]
      exact ⟨fun h => absurd h (by omega), fun h => absurd h0 (h p le_rfl hq)⟩
    · next h0 =>
      rcases Nat.eq_or_lt_of_le hq with rfl | hlt
      · constructor
        · intro _ p' h1 h2
          obtain rfl : p' = p := by omega
          exact h0
        · intro _
          have : ∀ left p', p < p' → (m.firstZero s j left p').writes p = true := by
            intro left
            induction left with
            | zero => intro _ _; rfl
            | succ l ihl =>
              intro p' hp'
              unfold Memory.firstZero
              split
              · simpa [PacketResult.writes] using hp'
              · exact ihl (p' + 1) (by omega)
          exact this left (p + 1) (Nat.lt_succ_self p)
      · rw [ih (by omega) (by omega)]
        constructor
        · intro h p' h1 h2
          rcases Nat.eq_or_lt_of_le h1 with rfl | h3
          · exact h0
          · exact h p' h3 h2
        · exact fun h p' h1 h2 => h p' (by omega) h2

/-- The cell of word `q` is written exactly when no word from 2 up to `q` is zero (R148, R151). -/
theorem Memory.decodePacket_writes (m : Memory) (s j : Nat) {q : Nat} (hq : 2 ≤ q) (hq' : q < 82) :
    (m.decodePacket s j).writes q = true ↔ ∀ p, 2 ≤ p → p ≤ q → m.sampleWord s (sampleIndex j p) ≠ 0#16 :=
  Memory.firstZero_writes m s j hq (by simpa using hq')

theorem Memory.firstZero_truncated (m : Memory) (s j left p : Nat) :
    (m.firstZero s j left p).isTruncated = true ↔ ∃ q, p ≤ q ∧ q < p + left ∧ m.sampleWord s (sampleIndex j q) = 0#16 := by
  induction left generalizing p with
  | zero =>
    constructor
    · intro h; cases h
    · rintro ⟨q, h1, h2, -⟩; omega
  | succ left ih =>
    unfold Memory.firstZero
    split
    · next h0 => exact ⟨fun _ => ⟨p, le_rfl, by omega, h0⟩, fun _ => rfl⟩
    · next h0 =>
      rw [ih]
      constructor
      · rintro ⟨q, h1, h2, h3⟩; exact ⟨q, by omega, by omega, h3⟩
      · rintro ⟨q, h1, h2, h3⟩
        rcases Nat.eq_or_lt_of_le h1 with rfl | h4
        · exact absurd h3 h0
        · exact ⟨q, h4, by omega, h3⟩

/-- A packet is truncated exactly when one of its sample words is zero (R146). -/
theorem Memory.decodePacket_truncated (m : Memory) (s j : Nat) :
    (m.decodePacket s j).isTruncated = true ↔ ∃ q, 2 ≤ q ∧ q < 82 ∧ m.sampleWord s (sampleIndex j q) = 0#16 :=
  Memory.firstZero_truncated m s j _ _

/-! ### The packet loop -/

/-- Everything the packet loop does, from word `p` on. -/
theorem decodeWords_spec (shelf : Memory) {s j left p : Nat} (hs : s < 4) (hj : j < 60) (hp : 2 ≤ p) (hl : p + left = 82)
    (x : Assembly) :
    (decodeWords shelf s j left p x).count = x.count + (if (shelf.firstZero s j left p).isTruncated then 1 else 0) ∧
    ∀ r c, c < 160 → (decodeWords shelf s j left p x).raw.rawCell r c =
      if s = sourceSegment r ∧ j = sourcePacket r c ∧ p ≤ sourceWord c ∧ (shelf.firstZero s j left p).writes (sourceWord c)
      then shelf.sampleWord s (sampleIndex j (sourceWord c)) else x.raw.rawCell r c := by
  induction left generalizing p x with
  | zero =>
    refine ⟨by simp [decodeWords, Memory.firstZero, PacketResult.isTruncated], fun r c hc => ?_⟩
    rw [if_neg]
    · rfl
    · rintro ⟨-, -, h, -⟩
      unfold sourceWord at h
      omega
  | succ left ih =>
    unfold decodeWords Memory.firstZero
    by_cases h0 : shelf.sampleWord s (sampleIndex j p) = 0#16
    · simp only [h0, if_true]
      refine ⟨by simp [PacketResult.isTruncated], fun r c _ => ?_⟩
      rw [if_neg]
      simp only [PacketResult.writes, decide_eq_true_eq]
      omega
    · simp only [h0, if_false]
      rw [Memory.placeSample_eq hs hj hp (by omega)]
      obtain ⟨h1, h2⟩ := ih (p := p + 1) (by omega) (by omega)
        { x with raw := x.raw.setRawCell (j / 2 + 30 * s) (p - 2 + 80 * (j % 2)) (shelf.sampleWord s (sampleIndex j p)) }
      refine ⟨h1, fun r c hc => ?_⟩
      rw [h2 r c hc]
      have hcell := place_eq_iff_source (s := s) (r := r) hj hp (by omega : p < 82) hc
      by_cases hw : r = j / 2 + 30 * s ∧ c = p - 2 + 80 * (j % 2)
      · obtain ⟨hss, hjj, hpp⟩ := hcell.mp hw
        have hwr : (shelf.firstZero s j left (p + 1)).writes (sourceWord c) = true := by
          have hfull := (Memory.firstZero_writes shelf s j (left := left + 1) (p := p) (q := p) le_rfl (by omega)).mpr
            (fun p' ha hb => by obtain rfl : p' = p := by omega
                                exact h0)
          rw [Memory.firstZero, if_neg h0] at hfull
          rwa [← hpp]
        rw [if_neg (by omega), if_pos ⟨hss, hjj, by omega, hwr⟩, ← hpp]
        obtain ⟨hr, hcc⟩ := hw
        subst hr hcc
        exact Memory.rawCell_setRawCell_same _ _ _ _
      · have hne : ¬(s = sourceSegment r ∧ j = sourcePacket r c ∧ p = sourceWord c) := fun h => hw (hcell.mpr h)
        rw [Memory.rawCell_setRawCell_other _ _ (by omega) hc hw]
        have hiff : (p + 1 ≤ sourceWord c) ↔ (p ≤ sourceWord c ∧ p ≠ sourceWord c) := by omega
        by_cases ha : s = sourceSegment r ∧ j = sourcePacket r c
        · obtain ⟨ha1, ha2⟩ := ha
          have hpne : p ≠ sourceWord c := fun h => hne ⟨ha1, ha2, h⟩
          have : (p + 1 ≤ sourceWord c) ↔ (p ≤ sourceWord c) := by omega
          simp only [this]
        · rw [if_neg (fun h => ha ⟨h.1, h.2.1⟩), if_neg (fun h => ha ⟨h.1, h.2.1⟩)]

theorem decodePacketInto_count (shelf : Memory) {s j : Nat} (hs : s < 4) (hj : j < 60) (x : Assembly) :
    (decodePacketInto shelf s j x).count = x.count + (if (shelf.decodePacket s j).isTruncated then 1 else 0) :=
  (decodeWords_spec shelf hs hj (by simp) (by simp) x).1

theorem decodePacketInto_rawCell (shelf : Memory) {s j : Nat} (hs : s < 4) (hj : j < 60) (x : Assembly) (r : Nat) {c : Nat}
    (hc : c < 160) :
    (decodePacketInto shelf s j x).raw.rawCell r c =
      if s = sourceSegment r ∧ j = sourcePacket r c ∧ (shelf.decodePacket s j).writes (sourceWord c)
      then shelf.sampleWord s (sampleIndex j (sourceWord c)) else x.raw.rawCell r c := by
  have h2 : 2 ≤ sourceWord c := by unfold sourceWord; omega
  have := (decodeWords_spec shelf hs hj (p := 2) (left := 80) (by omega) (by omega) x).2 r c hc
  simp only [h2, true_and] at this
  exact this

/-- What every write of the packet loop keeps, the loop keeps. -/
theorem decodeWords_keeps (shelf : Memory) (P : Memory → Prop) {s j left p : Nat} (hs : s < 4) (hj : j < 60) (hp : 2 ≤ p)
    (hl : p + left = 82) (hset : ∀ m r c v, r < 120 → c < 160 → P m → P (m.setRawCell r c v)) (x : Assembly)
    (h : P x.raw) : P (decodeWords shelf s j left p x).raw := by
  induction left generalizing p x with
  | zero => exact h
  | succ left ih =>
    unfold decodeWords
    by_cases h0 : shelf.sampleWord s (sampleIndex j p) = 0#16
    · simpa only [h0, if_true] using h
    · simp only [h0, if_false]
      refine ih (by omega) (by omega) _ ?_
      rw [Memory.placeSample_eq hs hj hp (by omega)]
      exact hset _ _ _ _ (by omega) (by omega) h

/-! ### The whole assembly -/

/-- A property of the RAW grid that every write of a cell keeps holds after an assembly if it held before. -/
theorem assemble_keeps (shelf raw : Memory) (P : Memory → Prop)
    (hset : ∀ m r c v, r < 120 → c < 160 → P m → P (m.setRawCell r c v)) (h : P raw) : P (assemble shelf raw).raw :=
  loop_keeps (fun x : Assembly => P x.raw) h fun _ _ hs hx =>
    loop_keeps (fun x : Assembly => P x.raw) hx fun _ _ hj hy => decodeWords_keeps shelf P hs hj (by simp) (by simp) hset _ hy

/-- The RAW grid stays canonical and inside its window. -/
theorem sound_assemble (shelf : Memory) {raw : Memory} (h : raw.sound rawHolds) :
    (assemble shelf raw).raw.sound rawHolds :=
  assemble_keeps shelf raw (fun m => m.sound rawHolds) (fun _ _ _ v hr hc hm => Memory.sound_setRawCell hm hr hc v) h

/-- A cell of RAW after an assembly: the sample of its packet and word if the packet writes it, else as before (R148). -/
theorem assemble_rawCell (shelf raw : Memory) {r c : Nat} (hr : r < 120) (hc : c < 160) :
    (assemble shelf raw).raw.rawCell r c =
      if (shelf.decodePacket (sourceSegment r) (sourcePacket r c)).writes (sourceWord c)
      then shelf.sampleWord (sourceSegment r) (sampleIndex (sourcePacket r c) (sourceWord c)) else raw.rawCell r c := by
  have hS : sourceSegment r < 4 := by unfold sourceSegment; omega
  have hJ : sourcePacket r c < 60 := by unfold sourcePacket; omega
  -- within segment S, after k packets; before and after, other segments do nothing to this cell
  have hseg : ∀ (s : Nat), s < 4 → ∀ (n : Nat), n ≤ 60 → ∀ x : Assembly,
      (loop (decodePacketInto shelf s) n x).raw.rawCell r c =
        if s = sourceSegment r ∧ sourcePacket r c < n ∧
          (shelf.decodePacket (sourceSegment r) (sourcePacket r c)).writes (sourceWord c)
        then shelf.sampleWord (sourceSegment r) (sampleIndex (sourcePacket r c) (sourceWord c)) else x.raw.rawCell r c := by
    intro s hs n
    induction n with
    | zero => intro _ x; simp
    | succ n ih =>
      intro hn x
      rw [loop_succ, decodePacketInto_rawCell shelf hs (by omega) _ r hc, ih (by omega)]
      by_cases h1 : s = sourceSegment r
      · subst h1
        by_cases h2 : n = sourcePacket r c
        · subst h2
          simp
        · have : sourcePacket r c < n + 1 ↔ sourcePacket r c < n := by omega
          simp only [h2, this, true_and, false_and, if_false]
      · simp [h1]
  have hall : ∀ (n : Nat), n ≤ 4 → ∀ x : Assembly,
      (loop (fun s => loop (decodePacketInto shelf s) 60) n x).raw.rawCell r c =
        if sourceSegment r < n ∧ (shelf.decodePacket (sourceSegment r) (sourcePacket r c)).writes (sourceWord c)
        then shelf.sampleWord (sourceSegment r) (sampleIndex (sourcePacket r c) (sourceWord c)) else x.raw.rawCell r c := by
    intro n
    induction n with
    | zero => intro _ x; simp
    | succ n ih =>
      intro hn x
      rw [loop_succ, hseg n (by omega) 60 le_rfl, ih (by omega)]
      by_cases h1 : n = sourceSegment r
      · subst h1
        simp [hJ]
      · have : sourceSegment r < n + 1 ↔ sourceSegment r < n := by omega
        simp only [h1, this, false_and, if_false]
  have := hall 4 le_rfl { raw := raw, count := 0 }
  simp only [hS, true_and] at this
  exact this

/-- The count of an assembly is the number of truncated packets (R151). -/
theorem assemble_count (shelf raw : Memory) : (assemble shelf raw).count = shelf.truncatedPackets := by
  have inner : ∀ (s : Nat), s < 4 → ∀ n, n ≤ 60 → ∀ (x : Assembly) (k : Nat), x.count = k →
      (loop (decodePacketInto shelf s) n x).count =
        loop (fun j n => if (shelf.decodePacket s j).isTruncated then n + 1 else n) n k := by
    intro s hs n
    induction n with
    | zero => intro _ x k h; exact h
    | succ n ih =>
      intro hn x k h
      rw [loop_succ, loop_succ, decodePacketInto_count shelf hs (by omega), ih (by omega) x k h]
      split <;> rfl
  have outer : ∀ n, n ≤ 4 → (loop (fun s => loop (decodePacketInto shelf s) 60) n { raw := raw, count := 0 }).count =
      loop (fun s => loop (fun j n => if (shelf.decodePacket s j).isTruncated then n + 1 else n) 60) n 0 := by
    intro n
    induction n with
    | zero => intro _; rfl
    | succ n ih =>
      intro hn
      rw [loop_succ, loop_succ]
      exact inner n (by omega) 60 le_rfl _ _ (ih (by omega))
  exact outer 4 le_rfl

/-- At most one zero is counted in a packet, so at most 240 in an assembly (R29). -/
theorem Memory.truncatedPackets_le (m : Memory) : m.truncatedPackets ≤ 240 := by
  have := loop_induct (n := 4) (x := 0)
    (body := fun s => loop (fun j n => if (m.decodePacket s j).isTruncated then n + 1 else n) 60)
    (fun k n => n ≤ 60 * k) (by omega) (by
      intro s y _ hy
      have := loop_induct (n := 60) (x := y)
        (body := fun j n => if (m.decodePacket s j).isTruncated then n + 1 else n)
        (fun k n => n ≤ y + k) (by omega) (by
          intro j z _ hz
          show (if (m.decodePacket s j).isTruncated then z + 1 else z) ≤ y + (j + 1)
          split <;> omega)
      omega)
  exact this

end Sys2Proof.Machine
end

