-- ==== Sys2Proof/Laws/State.lean ====
section
/-! SUPPORT. One lemma per field per update of the state, so that no later proof unfolds a record update. -/

namespace Sys2Proof.Machine

/-! ### setSegv -/
@[simp] theorem State.setSegv_prime (s : State) (k : Nat) (v : Bool) : (s.setSegv k v).prime = s.prime := rfl
@[simp] theorem State.setSegv_rawv (s : State) (k : Nat) (v : Bool) : (s.setSegv k v).rawv = s.rawv := rfl
@[simp] theorem State.setSegv_intv (s : State) (k : Nat) (v : Bool) : (s.setSegv k v).intv = s.intv := rfl
@[simp] theorem State.setSegv_colv (s : State) (k : Nat) (v : Bool) : (s.setSegv k v).colv = s.colv := rfl
@[simp] theorem State.setSegv_dropped (s : State) (k : Nat) (v : Bool) : (s.setSegv k v).dropped = s.dropped := rfl
@[simp] theorem State.setSegv_degen (s : State) (k : Nat) (v : Bool) : (s.setSegv k v).degen = s.degen := rfl
@[simp] theorem State.setSegv_palclamp (s : State) (k : Nat) (v : Bool) : (s.setSegv k v).palclamp = s.palclamp :=
  rfl
@[simp] theorem State.setSegv_lenerr (s : State) (k : Nat) (v : Bool) : (s.setSegv k v).lenerr = s.lenerr := rfl
@[simp] theorem State.setSegv_seqerr (s : State) (k : Nat) (v : Bool) : (s.setSegv k v).seqerr = s.seqerr := rfl
@[simp] theorem State.setSegv_illcmd (s : State) (k : Nat) (v : Bool) : (s.setSegv k v).illcmd = s.illcmd := rfl
@[simp] theorem State.setSegv_cfgerr (s : State) (k : Nat) (v : Bool) : (s.setSegv k v).cfgerr = s.cfgerr := rfl
@[simp] theorem State.setSegv_rangeMin (s : State) (k : Nat) (v : Bool) : (s.setSegv k v).rangeMin = s.rangeMin :=
  rfl
@[simp] theorem State.setSegv_rangeMax (s : State) (k : Nat) (v : Bool) : (s.setSegv k v).rangeMax = s.rangeMax :=
  rfl
@[simp] theorem State.setSegv_autoMin (s : State) (k : Nat) (v : Bool) : (s.setSegv k v).autoMin = s.autoMin := rfl
@[simp] theorem State.setSegv_autoMax (s : State) (k : Nat) (v : Bool) : (s.setSegv k v).autoMax = s.autoMax := rfl
@[simp] theorem State.setSegv_palsel (s : State) (k : Nat) (v : Bool) : (s.setSegv k v).palsel = s.palsel := rfl
@[simp] theorem State.setSegv_dropFrame (s : State) (k : Nat) (v : Bool) : (s.setSegv k v).dropFrame = s.dropFrame :=
  rfl
@[simp] theorem State.setSegv_dropTotal (s : State) (k : Nat) (v : Bool) : (s.setSegv k v).dropTotal = s.dropTotal :=
  rfl
@[simp] theorem State.setSegv_frames (s : State) (k : Nat) (v : Bool) : (s.setSegv k v).frames = s.frames := rfl
@[simp] theorem State.setSegv_effMin (s : State) (k : Nat) (v : Bool) : (s.setSegv k v).effMin = s.effMin := rfl
@[simp] theorem State.setSegv_effMax (s : State) (k : Nat) (v : Bool) : (s.setSegv k v).effMax = s.effMax := rfl
@[simp] theorem State.setSegv_shelf (s : State) (k : Nat) (v : Bool) : (s.setSegv k v).shelf = s.shelf := rfl
@[simp] theorem State.setSegv_raw (s : State) (k : Nat) (v : Bool) : (s.setSegv k v).raw = s.raw := rfl
@[simp] theorem State.setSegv_int (s : State) (k : Nat) (v : Bool) : (s.setSegv k v).int = s.int := rfl
@[simp] theorem State.setSegv_col (s : State) (k : Nat) (v : Bool) : (s.setSegv k v).col = s.col := rfl
@[simp] theorem State.setSegv_script (s : State) (k : Nat) (v : Bool) : (s.setSegv k v).script = s.script := rfl
@[simp] theorem State.setSegv_responses (s : State) (k : Nat) (v : Bool) : (s.setSegv k v).responses = s.responses :=
  rfl

/-! ### clearSegv -/
@[simp] theorem State.clearSegv_prime (s : State) : (s.clearSegv).prime = s.prime := rfl
@[simp] theorem State.clearSegv_segv (s : State) : (s.clearSegv).segv = 0#4 := rfl
@[simp] theorem State.clearSegv_rawv (s : State) : (s.clearSegv).rawv = s.rawv := rfl
@[simp] theorem State.clearSegv_intv (s : State) : (s.clearSegv).intv = s.intv := rfl
@[simp] theorem State.clearSegv_colv (s : State) : (s.clearSegv).colv = s.colv := rfl
@[simp] theorem State.clearSegv_dropped (s : State) : (s.clearSegv).dropped = s.dropped := rfl
@[simp] theorem State.clearSegv_degen (s : State) : (s.clearSegv).degen = s.degen := rfl
@[simp] theorem State.clearSegv_palclamp (s : State) : (s.clearSegv).palclamp = s.palclamp := rfl
@[simp] theorem State.clearSegv_lenerr (s : State) : (s.clearSegv).lenerr = s.lenerr := rfl
@[simp] theorem State.clearSegv_seqerr (s : State) : (s.clearSegv).seqerr = s.seqerr := rfl
@[simp] theorem State.clearSegv_illcmd (s : State) : (s.clearSegv).illcmd = s.illcmd := rfl
@[simp] theorem State.clearSegv_cfgerr (s : State) : (s.clearSegv).cfgerr = s.cfgerr := rfl
@[simp] theorem State.clearSegv_rangeMin (s : State) : (s.clearSegv).rangeMin = s.rangeMin := rfl
@[simp] theorem State.clearSegv_rangeMax (s : State) : (s.clearSegv).rangeMax = s.rangeMax := rfl
@[simp] theorem State.clearSegv_autoMin (s : State) : (s.clearSegv).autoMin = s.autoMin := rfl
@[simp] theorem State.clearSegv_autoMax (s : State) : (s.clearSegv).autoMax = s.autoMax := rfl
@[simp] theorem State.clearSegv_palsel (s : State) : (s.clearSegv).palsel = s.palsel := rfl
@[simp] theorem State.clearSegv_dropFrame (s : State) : (s.clearSegv).dropFrame = s.dropFrame := rfl
@[simp] theorem State.clearSegv_dropTotal (s : State) : (s.clearSegv).dropTotal = s.dropTotal := rfl
@[simp] theorem State.clearSegv_frames (s : State) : (s.clearSegv).frames = s.frames := rfl
@[simp] theorem State.clearSegv_effMin (s : State) : (s.clearSegv).effMin = s.effMin := rfl
@[simp] theorem State.clearSegv_effMax (s : State) : (s.clearSegv).effMax = s.effMax := rfl
@[simp] theorem State.clearSegv_shelf (s : State) : (s.clearSegv).shelf = s.shelf := rfl
@[simp] theorem State.clearSegv_raw (s : State) : (s.clearSegv).raw = s.raw := rfl
@[simp] theorem State.clearSegv_int (s : State) : (s.clearSegv).int = s.int := rfl
@[simp] theorem State.clearSegv_col (s : State) : (s.clearSegv).col = s.col := rfl
@[simp] theorem State.clearSegv_script (s : State) : (s.clearSegv).script = s.script := rfl
@[simp] theorem State.clearSegv_responses (s : State) : (s.clearSegv).responses = s.responses := rfl

/-! ### raise -/
@[simp] theorem State.raise_prime (s : State) (c : Condition) : (s.raise c).prime = s.prime := rfl
@[simp] theorem State.raise_segv (s : State) (c : Condition) : (s.raise c).segv = s.segv := rfl
@[simp] theorem State.raise_rawv (s : State) (c : Condition) : (s.raise c).rawv = s.rawv := rfl
@[simp] theorem State.raise_intv (s : State) (c : Condition) : (s.raise c).intv = s.intv := rfl
@[simp] theorem State.raise_colv (s : State) (c : Condition) : (s.raise c).colv = s.colv := rfl
@[simp] theorem State.raise_dropped (s : State) (c : Condition) : (s.raise c).dropped = (s.dropped || decide (c = .dropped)) :=
  by simp [State.raise, State.raiseIf]
@[simp] theorem State.raise_degen (s : State) (c : Condition) : (s.raise c).degen = (s.degen || decide (c = .degen)) :=
  by simp [State.raise, State.raiseIf]
@[simp] theorem State.raise_palclamp (s : State) (c : Condition) : (s.raise c).palclamp = (s.palclamp || decide (c = .palclamp)) :=
  by simp [State.raise, State.raiseIf]
@[simp] theorem State.raise_lenerr (s : State) (c : Condition) : (s.raise c).lenerr = (s.lenerr || decide (c = .lenerr)) :=
  by simp [State.raise, State.raiseIf]
@[simp] theorem State.raise_seqerr (s : State) (c : Condition) : (s.raise c).seqerr = (s.seqerr || decide (c = .seqerr)) :=
  by simp [State.raise, State.raiseIf]
@[simp] theorem State.raise_illcmd (s : State) (c : Condition) : (s.raise c).illcmd = (s.illcmd || decide (c = .illcmd)) :=
  by simp [State.raise, State.raiseIf]
@[simp] theorem State.raise_cfgerr (s : State) (c : Condition) : (s.raise c).cfgerr = (s.cfgerr || decide (c = .cfgerr)) :=
  by simp [State.raise, State.raiseIf]
@[simp] theorem State.raise_rangeMin (s : State) (c : Condition) : (s.raise c).rangeMin = s.rangeMin :=
  rfl
@[simp] theorem State.raise_rangeMax (s : State) (c : Condition) : (s.raise c).rangeMax = s.rangeMax :=
  rfl
@[simp] theorem State.raise_autoMin (s : State) (c : Condition) : (s.raise c).autoMin = s.autoMin :=
  rfl
@[simp] theorem State.raise_autoMax (s : State) (c : Condition) : (s.raise c).autoMax = s.autoMax :=
  rfl
@[simp] theorem State.raise_palsel (s : State) (c : Condition) : (s.raise c).palsel = s.palsel :=
  rfl
@[simp] theorem State.raise_dropFrame (s : State) (c : Condition) : (s.raise c).dropFrame = s.dropFrame :=
  rfl
@[simp] theorem State.raise_dropTotal (s : State) (c : Condition) : (s.raise c).dropTotal = s.dropTotal :=
  rfl
@[simp] theorem State.raise_frames (s : State) (c : Condition) : (s.raise c).frames = s.frames :=
  rfl
@[simp] theorem State.raise_effMin (s : State) (c : Condition) : (s.raise c).effMin = s.effMin :=
  rfl
@[simp] theorem State.raise_effMax (s : State) (c : Condition) : (s.raise c).effMax = s.effMax :=
  rfl
@[simp] theorem State.raise_shelf (s : State) (c : Condition) : (s.raise c).shelf = s.shelf := rfl
@[simp] theorem State.raise_raw (s : State) (c : Condition) : (s.raise c).raw = s.raw := rfl
@[simp] theorem State.raise_int (s : State) (c : Condition) : (s.raise c).int = s.int := rfl
@[simp] theorem State.raise_col (s : State) (c : Condition) : (s.raise c).col = s.col := rfl
@[simp] theorem State.raise_script (s : State) (c : Condition) : (s.raise c).script = s.script :=
  rfl
@[simp] theorem State.raise_responses (s : State) (c : Condition) : (s.raise c).responses = s.responses :=
  rfl

/-! ### raiseIf -/
@[simp] theorem State.raiseIf_prime (s : State) (p : Bool) (c : Condition) : (s.raiseIf p c).prime = s.prime :=
  rfl
@[simp] theorem State.raiseIf_segv (s : State) (p : Bool) (c : Condition) : (s.raiseIf p c).segv = s.segv :=
  rfl
@[simp] theorem State.raiseIf_rawv (s : State) (p : Bool) (c : Condition) : (s.raiseIf p c).rawv = s.rawv :=
  rfl
@[simp] theorem State.raiseIf_intv (s : State) (p : Bool) (c : Condition) : (s.raiseIf p c).intv = s.intv :=
  rfl
@[simp] theorem State.raiseIf_colv (s : State) (p : Bool) (c : Condition) : (s.raiseIf p c).colv = s.colv :=
  rfl
@[simp] theorem State.raiseIf_dropped (s : State) (p : Bool) (c : Condition) : (s.raiseIf p c).dropped = (s.dropped || (p && decide (c = .dropped))) :=
  rfl
@[simp] theorem State.raiseIf_degen (s : State) (p : Bool) (c : Condition) : (s.raiseIf p c).degen = (s.degen || (p && decide (c = .degen))) :=
  rfl
@[simp] theorem State.raiseIf_palclamp (s : State) (p : Bool) (c : Condition) : (s.raiseIf p c).palclamp = (s.palclamp || (p && decide (c = .palclamp))) :=
  rfl
@[simp] theorem State.raiseIf_lenerr (s : State) (p : Bool) (c : Condition) : (s.raiseIf p c).lenerr = (s.lenerr || (p && decide (c = .lenerr))) :=
  rfl
@[simp] theorem State.raiseIf_seqerr (s : State) (p : Bool) (c : Condition) : (s.raiseIf p c).seqerr = (s.seqerr || (p && decide (c = .seqerr))) :=
  rfl
@[simp] theorem State.raiseIf_illcmd (s : State) (p : Bool) (c : Condition) : (s.raiseIf p c).illcmd = (s.illcmd || (p && decide (c = .illcmd))) :=
  rfl
@[simp] theorem State.raiseIf_cfgerr (s : State) (p : Bool) (c : Condition) : (s.raiseIf p c).cfgerr = (s.cfgerr || (p && decide (c = .cfgerr))) :=
  rfl
@[simp] theorem State.raiseIf_rangeMin (s : State) (p : Bool) (c : Condition) : (s.raiseIf p c).rangeMin = s.rangeMin :=
  rfl
@[simp] theorem State.raiseIf_rangeMax (s : State) (p : Bool) (c : Condition) : (s.raiseIf p c).rangeMax = s.rangeMax :=
  rfl
@[simp] theorem State.raiseIf_autoMin (s : State) (p : Bool) (c : Condition) : (s.raiseIf p c).autoMin = s.autoMin :=
  rfl
@[simp] theorem State.raiseIf_autoMax (s : State) (p : Bool) (c : Condition) : (s.raiseIf p c).autoMax = s.autoMax :=
  rfl
@[simp] theorem State.raiseIf_palsel (s : State) (p : Bool) (c : Condition) : (s.raiseIf p c).palsel = s.palsel :=
  rfl
@[simp] theorem State.raiseIf_dropFrame (s : State) (p : Bool) (c : Condition) : (s.raiseIf p c).dropFrame = s.dropFrame :=
  rfl
@[simp] theorem State.raiseIf_dropTotal (s : State) (p : Bool) (c : Condition) : (s.raiseIf p c).dropTotal = s.dropTotal :=
  rfl
@[simp] theorem State.raiseIf_frames (s : State) (p : Bool) (c : Condition) : (s.raiseIf p c).frames = s.frames :=
  rfl
@[simp] theorem State.raiseIf_effMin (s : State) (p : Bool) (c : Condition) : (s.raiseIf p c).effMin = s.effMin :=
  rfl
@[simp] theorem State.raiseIf_effMax (s : State) (p : Bool) (c : Condition) : (s.raiseIf p c).effMax = s.effMax :=
  rfl
@[simp] theorem State.raiseIf_shelf (s : State) (p : Bool) (c : Condition) : (s.raiseIf p c).shelf = s.shelf :=
  rfl
@[simp] theorem State.raiseIf_raw (s : State) (p : Bool) (c : Condition) : (s.raiseIf p c).raw = s.raw :=
  rfl
@[simp] theorem State.raiseIf_int (s : State) (p : Bool) (c : Condition) : (s.raiseIf p c).int = s.int :=
  rfl
@[simp] theorem State.raiseIf_col (s : State) (p : Bool) (c : Condition) : (s.raiseIf p c).col = s.col :=
  rfl
@[simp] theorem State.raiseIf_script (s : State) (p : Bool) (c : Condition) : (s.raiseIf p c).script = s.script :=
  rfl
@[simp] theorem State.raiseIf_responses (s : State) (p : Bool) (c : Condition) : (s.raiseIf p c).responses = s.responses :=
  rfl

/-! ### refuseCommand -/
@[simp] theorem State.refuseCommand_prime (s : State) : (s.refuseCommand).prime = s.prime := by simp [State.refuseCommand]
@[simp] theorem State.refuseCommand_segv (s : State) : (s.refuseCommand).segv = s.segv := by simp [State.refuseCommand]
@[simp] theorem State.refuseCommand_rawv (s : State) : (s.refuseCommand).rawv = s.rawv := by simp [State.refuseCommand]
@[simp] theorem State.refuseCommand_intv (s : State) : (s.refuseCommand).intv = s.intv := by simp [State.refuseCommand]
@[simp] theorem State.refuseCommand_colv (s : State) : (s.refuseCommand).colv = s.colv := by simp [State.refuseCommand]
@[simp] theorem State.refuseCommand_dropped (s : State) : (s.refuseCommand).dropped = s.dropped := by simp [State.refuseCommand]
@[simp] theorem State.refuseCommand_degen (s : State) : (s.refuseCommand).degen = s.degen := by simp [State.refuseCommand]
@[simp] theorem State.refuseCommand_palclamp (s : State) : (s.refuseCommand).palclamp = s.palclamp := by simp [State.refuseCommand]
@[simp] theorem State.refuseCommand_lenerr (s : State) : (s.refuseCommand).lenerr = s.lenerr := by simp [State.refuseCommand]
@[simp] theorem State.refuseCommand_seqerr (s : State) : (s.refuseCommand).seqerr = true := by simp [State.refuseCommand]
@[simp] theorem State.refuseCommand_illcmd (s : State) : (s.refuseCommand).illcmd = s.illcmd := by simp [State.refuseCommand]
@[simp] theorem State.refuseCommand_cfgerr (s : State) : (s.refuseCommand).cfgerr = s.cfgerr := by simp [State.refuseCommand]
@[simp] theorem State.refuseCommand_rangeMin (s : State) : (s.refuseCommand).rangeMin = s.rangeMin := by simp [State.refuseCommand]
@[simp] theorem State.refuseCommand_rangeMax (s : State) : (s.refuseCommand).rangeMax = s.rangeMax := by simp [State.refuseCommand]
@[simp] theorem State.refuseCommand_autoMin (s : State) : (s.refuseCommand).autoMin = s.autoMin := by simp [State.refuseCommand]
@[simp] theorem State.refuseCommand_autoMax (s : State) : (s.refuseCommand).autoMax = s.autoMax := by simp [State.refuseCommand]
@[simp] theorem State.refuseCommand_palsel (s : State) : (s.refuseCommand).palsel = s.palsel := by simp [State.refuseCommand]
@[simp] theorem State.refuseCommand_dropFrame (s : State) : (s.refuseCommand).dropFrame = s.dropFrame := by simp [State.refuseCommand]
@[simp] theorem State.refuseCommand_dropTotal (s : State) : (s.refuseCommand).dropTotal = s.dropTotal := by simp [State.refuseCommand]
@[simp] theorem State.refuseCommand_frames (s : State) : (s.refuseCommand).frames = s.frames := by simp [State.refuseCommand]
@[simp] theorem State.refuseCommand_effMin (s : State) : (s.refuseCommand).effMin = s.effMin := by simp [State.refuseCommand]
@[simp] theorem State.refuseCommand_effMax (s : State) : (s.refuseCommand).effMax = s.effMax := by simp [State.refuseCommand]
@[simp] theorem State.refuseCommand_shelf (s : State) : (s.refuseCommand).shelf = s.shelf := by simp [State.refuseCommand]
@[simp] theorem State.refuseCommand_raw (s : State) : (s.refuseCommand).raw = s.raw := by simp [State.refuseCommand]
@[simp] theorem State.refuseCommand_int (s : State) : (s.refuseCommand).int = s.int := by simp [State.refuseCommand]
@[simp] theorem State.refuseCommand_col (s : State) : (s.refuseCommand).col = s.col := by simp [State.refuseCommand]
@[simp] theorem State.refuseCommand_script (s : State) : (s.refuseCommand).script = s.script := by simp [State.refuseCommand]
@[simp] theorem State.refuseCommand_responses (s : State) : (s.refuseCommand).responses = s.responses := by simp [State.refuseCommand]

/-! ### respond -/
@[simp] theorem State.respond_prime (s : State) (r : Response) : (s.respond r).prime = s.prime := rfl
@[simp] theorem State.respond_segv (s : State) (r : Response) : (s.respond r).segv = s.segv := rfl
@[simp] theorem State.respond_rawv (s : State) (r : Response) : (s.respond r).rawv = s.rawv := rfl
@[simp] theorem State.respond_intv (s : State) (r : Response) : (s.respond r).intv = s.intv := rfl
@[simp] theorem State.respond_colv (s : State) (r : Response) : (s.respond r).colv = s.colv := rfl
@[simp] theorem State.respond_dropped (s : State) (r : Response) : (s.respond r).dropped = s.dropped := rfl
@[simp] theorem State.respond_degen (s : State) (r : Response) : (s.respond r).degen = s.degen := rfl
@[simp] theorem State.respond_palclamp (s : State) (r : Response) : (s.respond r).palclamp = s.palclamp := rfl
@[simp] theorem State.respond_lenerr (s : State) (r : Response) : (s.respond r).lenerr = s.lenerr := rfl
@[simp] theorem State.respond_seqerr (s : State) (r : Response) : (s.respond r).seqerr = s.seqerr := rfl
@[simp] theorem State.respond_illcmd (s : State) (r : Response) : (s.respond r).illcmd = s.illcmd := rfl
@[simp] theorem State.respond_cfgerr (s : State) (r : Response) : (s.respond r).cfgerr = s.cfgerr := rfl
@[simp] theorem State.respond_rangeMin (s : State) (r : Response) : (s.respond r).rangeMin = s.rangeMin := rfl
@[simp] theorem State.respond_rangeMax (s : State) (r : Response) : (s.respond r).rangeMax = s.rangeMax := rfl
@[simp] theorem State.respond_autoMin (s : State) (r : Response) : (s.respond r).autoMin = s.autoMin := rfl
@[simp] theorem State.respond_autoMax (s : State) (r : Response) : (s.respond r).autoMax = s.autoMax := rfl
@[simp] theorem State.respond_palsel (s : State) (r : Response) : (s.respond r).palsel = s.palsel := rfl
@[simp] theorem State.respond_dropFrame (s : State) (r : Response) : (s.respond r).dropFrame = s.dropFrame := rfl
@[simp] theorem State.respond_dropTotal (s : State) (r : Response) : (s.respond r).dropTotal = s.dropTotal := rfl
@[simp] theorem State.respond_frames (s : State) (r : Response) : (s.respond r).frames = s.frames := rfl
@[simp] theorem State.respond_effMin (s : State) (r : Response) : (s.respond r).effMin = s.effMin := rfl
@[simp] theorem State.respond_effMax (s : State) (r : Response) : (s.respond r).effMax = s.effMax := rfl
@[simp] theorem State.respond_shelf (s : State) (r : Response) : (s.respond r).shelf = s.shelf := rfl
@[simp] theorem State.respond_raw (s : State) (r : Response) : (s.respond r).raw = s.raw := rfl
@[simp] theorem State.respond_int (s : State) (r : Response) : (s.respond r).int = s.int := rfl
@[simp] theorem State.respond_col (s : State) (r : Response) : (s.respond r).col = s.col := rfl
@[simp] theorem State.respond_script (s : State) (r : Response) : (s.respond r).script = s.script := rfl
@[simp] theorem State.respond_responses (s : State) (r : Response) : (s.respond r).responses = r :: s.responses :=
  rfl

/-! ### clearFlags -/
@[simp] theorem State.clearFlags_prime (s : State) (v : Word) : (s.clearFlags v).prime = s.prime := rfl
@[simp] theorem State.clearFlags_segv (s : State) (v : Word) : (s.clearFlags v).segv = s.segv := rfl
@[simp] theorem State.clearFlags_rawv (s : State) (v : Word) : (s.clearFlags v).rawv = s.rawv := rfl
@[simp] theorem State.clearFlags_intv (s : State) (v : Word) : (s.clearFlags v).intv = s.intv := rfl
@[simp] theorem State.clearFlags_colv (s : State) (v : Word) : (s.clearFlags v).colv = s.colv := rfl
@[simp] theorem State.clearFlags_dropped (s : State) (v : Word) : (s.clearFlags v).dropped = (s.dropped && !v.getLsbD 8) :=
  rfl
@[simp] theorem State.clearFlags_degen (s : State) (v : Word) : (s.clearFlags v).degen = (s.degen && !v.getLsbD 9) :=
  rfl
@[simp] theorem State.clearFlags_palclamp (s : State) (v : Word) : (s.clearFlags v).palclamp = (s.palclamp && !v.getLsbD 10) :=
  rfl
@[simp] theorem State.clearFlags_lenerr (s : State) (v : Word) : (s.clearFlags v).lenerr = (s.lenerr && !v.getLsbD 11) :=
  rfl
@[simp] theorem State.clearFlags_seqerr (s : State) (v : Word) : (s.clearFlags v).seqerr = (s.seqerr && !v.getLsbD 12) :=
  rfl
@[simp] theorem State.clearFlags_illcmd (s : State) (v : Word) : (s.clearFlags v).illcmd = (s.illcmd && !v.getLsbD 13) :=
  rfl
@[simp] theorem State.clearFlags_cfgerr (s : State) (v : Word) : (s.clearFlags v).cfgerr = (s.cfgerr && !v.getLsbD 14) :=
  rfl
@[simp] theorem State.clearFlags_rangeMin (s : State) (v : Word) : (s.clearFlags v).rangeMin = s.rangeMin := rfl
@[simp] theorem State.clearFlags_rangeMax (s : State) (v : Word) : (s.clearFlags v).rangeMax = s.rangeMax := rfl
@[simp] theorem State.clearFlags_autoMin (s : State) (v : Word) : (s.clearFlags v).autoMin = s.autoMin := rfl
@[simp] theorem State.clearFlags_autoMax (s : State) (v : Word) : (s.clearFlags v).autoMax = s.autoMax := rfl
@[simp] theorem State.clearFlags_palsel (s : State) (v : Word) : (s.clearFlags v).palsel = s.palsel := rfl
@[simp] theorem State.clearFlags_dropFrame (s : State) (v : Word) : (s.clearFlags v).dropFrame = s.dropFrame := rfl
@[simp] theorem State.clearFlags_dropTotal (s : State) (v : Word) : (s.clearFlags v).dropTotal = s.dropTotal := rfl
@[simp] theorem State.clearFlags_frames (s : State) (v : Word) : (s.clearFlags v).frames = s.frames := rfl
@[simp] theorem State.clearFlags_effMin (s : State) (v : Word) : (s.clearFlags v).effMin = s.effMin := rfl
@[simp] theorem State.clearFlags_effMax (s : State) (v : Word) : (s.clearFlags v).effMax = s.effMax := rfl
@[simp] theorem State.clearFlags_shelf (s : State) (v : Word) : (s.clearFlags v).shelf = s.shelf := rfl
@[simp] theorem State.clearFlags_raw (s : State) (v : Word) : (s.clearFlags v).raw = s.raw := rfl
@[simp] theorem State.clearFlags_int (s : State) (v : Word) : (s.clearFlags v).int = s.int := rfl
@[simp] theorem State.clearFlags_col (s : State) (v : Word) : (s.clearFlags v).col = s.col := rfl
@[simp] theorem State.clearFlags_script (s : State) (v : Word) : (s.clearFlags v).script = s.script := rfl
@[simp] theorem State.clearFlags_responses (s : State) (v : Word) : (s.clearFlags v).responses = s.responses := rfl

/-! ### hardReset -/
@[simp] theorem State.hardReset_prime (s : State) : (s.hardReset).prime = State.reset.prime := rfl
@[simp] theorem State.hardReset_segv (s : State) : (s.hardReset).segv = State.reset.segv := rfl
@[simp] theorem State.hardReset_rawv (s : State) : (s.hardReset).rawv = State.reset.rawv := rfl
@[simp] theorem State.hardReset_intv (s : State) : (s.hardReset).intv = State.reset.intv := rfl
@[simp] theorem State.hardReset_colv (s : State) : (s.hardReset).colv = State.reset.colv := rfl
@[simp] theorem State.hardReset_dropped (s : State) : (s.hardReset).dropped = State.reset.dropped := rfl
@[simp] theorem State.hardReset_degen (s : State) : (s.hardReset).degen = State.reset.degen := rfl
@[simp] theorem State.hardReset_palclamp (s : State) : (s.hardReset).palclamp = State.reset.palclamp := rfl
@[simp] theorem State.hardReset_lenerr (s : State) : (s.hardReset).lenerr = State.reset.lenerr := rfl
@[simp] theorem State.hardReset_seqerr (s : State) : (s.hardReset).seqerr = State.reset.seqerr := rfl
@[simp] theorem State.hardReset_illcmd (s : State) : (s.hardReset).illcmd = State.reset.illcmd := rfl
@[simp] theorem State.hardReset_cfgerr (s : State) : (s.hardReset).cfgerr = State.reset.cfgerr := rfl
@[simp] theorem State.hardReset_rangeMin (s : State) : (s.hardReset).rangeMin = State.reset.rangeMin := rfl
@[simp] theorem State.hardReset_rangeMax (s : State) : (s.hardReset).rangeMax = State.reset.rangeMax := rfl
@[simp] theorem State.hardReset_autoMin (s : State) : (s.hardReset).autoMin = State.reset.autoMin := rfl
@[simp] theorem State.hardReset_autoMax (s : State) : (s.hardReset).autoMax = State.reset.autoMax := rfl
@[simp] theorem State.hardReset_palsel (s : State) : (s.hardReset).palsel = State.reset.palsel := rfl
@[simp] theorem State.hardReset_dropFrame (s : State) : (s.hardReset).dropFrame = State.reset.dropFrame := rfl
@[simp] theorem State.hardReset_dropTotal (s : State) : (s.hardReset).dropTotal = State.reset.dropTotal := rfl
@[simp] theorem State.hardReset_frames (s : State) : (s.hardReset).frames = State.reset.frames := rfl
@[simp] theorem State.hardReset_effMin (s : State) : (s.hardReset).effMin = State.reset.effMin := rfl
@[simp] theorem State.hardReset_effMax (s : State) : (s.hardReset).effMax = State.reset.effMax := rfl
@[simp] theorem State.hardReset_shelf (s : State) : (s.hardReset).shelf = s.shelf := rfl
@[simp] theorem State.hardReset_raw (s : State) : (s.hardReset).raw = s.raw := rfl
@[simp] theorem State.hardReset_int (s : State) : (s.hardReset).int = s.int := rfl
@[simp] theorem State.hardReset_col (s : State) : (s.hardReset).col = s.col := rfl
@[simp] theorem State.hardReset_script (s : State) : (s.hardReset).script = s.script := rfl
@[simp] theorem State.hardReset_responses (s : State) : (s.hardReset).responses = s.responses := rfl

/-! ### The flag of a condition -/

/-- Raising a condition sets its flag and no other. -/
@[simp] theorem State.flag_raise (s : State) (c d : Condition) : (s.raise c).flag d = (s.flag d || decide (c = d)) := by
  cases d <;> simp [State.flag]

@[simp] theorem State.flag_raiseIf (s : State) (p : Bool) (c d : Condition) :
    (s.raiseIf p c).flag d = (s.flag d || (p && decide (c = d))) := by
  cases d <;> simp [State.flag]

/-- A STATUS write clears exactly the flags whose cause code is a set bit. -/
@[simp] theorem State.flag_clearFlags (s : State) (v : Word) (d : Condition) :
    (s.clearFlags v).flag d = (s.flag d && !v.getLsbD d.code) := by
  cases d <;> rfl

@[simp] theorem State.raiseIf_false (s : State) (c : Condition) : s.raiseIf false c = s := by
  apply State.ext <;> simp

@[simp] theorem State.raiseIf_true (s : State) (c : Condition) : s.raiseIf true c = s.raise c := rfl

end Sys2Proof.Machine
end

