-- ==== Sys2Proof/Laws/Bus.lean ====
section
/-! SUPPORT. What the bus operations do: which accesses are accepted (spec/20_memory.md R64, R67), the CSR slots, the bits of
the STATUS word (spec/40_bus_and_control.md R124), and the shape of a step. -/

namespace Sys2Proof.Machine

/-! ### The map -/

theorem regionAt_some {a : Nat} {g : Region} (h : regionAt a = some g) : g ∈ regions ∧ g.holds a = true :=
  ⟨List.mem_of_find?_eq_some h, by simpa using List.find?_some h⟩

theorem Region.holds_iff (g : Region) (a : Nat) : g.holds a = true ↔ g.base ≤ a ∧ a < g.base + g.size := by
  simp [Region.holds]

/-- No address lies in two rows of the map. -/
theorem regions_disjoint : regions.Pairwise fun g k => g.base + g.size ≤ k.base := by decide

/-- A region begins and ends on a multiple of its width. -/
theorem regions_aligned : ∀ g ∈ regions, g.base % g.width.bytes = 0 ∧ g.size % g.width.bytes = 0 := by decide

theorem regionAt_of_holds {a : Nat} {g : Region} (hg : g ∈ regions) (h : g.holds a = true) : regionAt a = some g := by
  obtain ⟨k, hk⟩ : ∃ k, regionAt a = some k := by
    have : (regions.find? fun g => g.holds a).isSome := List.find?_isSome.mpr ⟨g, hg, h⟩
    exact Option.isSome_iff_exists.mp this
  obtain ⟨hkr, hka⟩ := regionAt_some hk
  rw [Region.holds_iff] at h hka
  by_cases hgk : g = k
  · rw [hk, hgk]
  · have hd : ∀ x ∈ regions, ∀ y ∈ regions, x ≠ y → x.base + x.size ≤ y.base ∨ y.base + y.size ≤ x.base := by decide
    have := hd g hg k hkr hgk
    omega

/-- Which accesses are accepted, and to which row of the map they go (R67): the row holds the address, has the width, and
the address is aligned. -/
theorem accepted_iff {a : Nat} {w : Width} {g : Region} :
    accepted a w = some g ↔ g ∈ regions ∧ g.holds a = true ∧ g.width = w ∧ a % w.bytes = 0 := by
  constructor
  · intro h
    unfold accepted at h
    split at h
    · next k hk =>
      split at h
      · next hc =>
        obtain rfl : k = g := by injection h
        exact ⟨(regionAt_some hk).1, (regionAt_some hk).2, hc.2.1, hc.2.2⟩
      · cases h
    · cases h
  · rintro ⟨hg, ha, rfl, hal⟩
    unfold accepted
    rw [regionAt_of_holds hg ha]
    have hmap : mapped a g.width = true := by
      unfold mapped
      rw [List.all_eq_true]
      intro k hk
      have hk : k < g.width.bytes := by simpa using hk
      have hin : g.holds (a + k) = true := by
        rw [Region.holds_iff] at ha ⊢
        obtain ⟨hb, hs⟩ := regions_aligned g hg
        cases hw : g.width <;> simp only [hw, Width.bytes] at hb hs hal hk <;> omega
      rw [regionAt_of_holds hg hin]
      rfl
    simp [hmap, hal]

/-- An access is not accepted exactly when no row of the map takes it. -/
theorem accepted_none_iff {a : Nat} {w : Width} :
    accepted a w = none ↔ ∀ g ∈ regions, ¬(g.holds a = true ∧ g.width = w ∧ a % w.bytes = 0) := by
  constructor
  · intro h g hg hc
    rw [accepted_iff.mpr ⟨hg, hc⟩] at h
    cases h
  · intro h
    cases hc : accepted a w with
    | none => rfl
    | some g =>
      obtain ⟨hg, hrest⟩ := accepted_iff.mp hc
      exact absurd hrest (h g hg)

/-- Every CSR slot is accepted as an aligned word, at its own offset. -/
theorem accepted_csr (r : Csr) :
    accepted r.offset .word = some { window := .csr, base := 0x00000, size := 64, width := .word } := by
  cases r <;> decide

@[simp] theorem Csr.at_offset (r : Csr) : Csr.at r.offset = r := by cases r <;> rfl

@[simp] theorem Csr.addr_toNat (r : Csr) : r.addr.toNat = r.offset := by cases r <;> rfl

/-! ### The STATUS word -/

/-- Each bit of the STATUS word (R124). -/
theorem State.statusWord_bits (s : State) :
    s.statusWord.getLsbD 0 = s.prime ∧ (∀ k < 4, s.statusWord.getLsbD (1 + k) = s.segv.getLsbD k) ∧
    s.statusWord.getLsbD 5 = s.rawv ∧ s.statusWord.getLsbD 6 = s.intv ∧ s.statusWord.getLsbD 7 = s.colv ∧
    (∀ d : Condition, s.statusWord.getLsbD d.code = s.flag d) ∧ ∀ k, 15 ≤ k → s.statusWord.getLsbD k = false := by
  refine ⟨?_, ?_, ?_, ?_, ?_, ?_, ?_⟩
  · simp only [State.statusWord, BitVec.getLsbD_append]; simp
  · intro k hk
    interval_cases k <;> simp only [State.statusWord, BitVec.getLsbD_append] <;> simp
  · simp only [State.statusWord, BitVec.getLsbD_append]; simp
  · simp only [State.statusWord, BitVec.getLsbD_append]; simp
  · simp only [State.statusWord, BitVec.getLsbD_append]; simp
  · intro d
    cases d <;> simp only [State.statusWord, BitVec.getLsbD_append, Condition.code, State.flag] <;> simp
  · intro k hk
    by_cases h : k < 32
    · interval_cases k <;> simp only [State.statusWord, BitVec.getLsbD_append] <;> simp
    · exact BitVec.getLsbD_of_ge _ _ (by omega)

/-! ### The step -/

/-- With nothing to do, nothing changes (R8). -/
theorem step_nil {s : State} (h : s.script = []) : step s = .next s := by
  unfold step hostStep
  rw [h]

/-- The step performs the host's next operation on the state without it. -/
theorem step_cons {s : State} {op : HostOp} {rest : List HostOp} (h : s.script = op :: rest) :
    step s = hostOperation op { s with script := rest } := by
  unfold step hostStep
  rw [h]

@[simp] theorem thenRespond_next (r : Response) (t : State) : thenRespond r (.next t) = .next (t.respond r) := rfl

/-- A bus write of a word to a CSR slot is that CSR's write, answered OK (R121, R123). -/
theorem busWrite_csr (s : State) (r : Csr) (v : Word) : busWrite s r.addr (.b32 v) = thenRespond .ok (s.writeCsr v r) := by
  unfold busWrite
  simp only [Csr.addr_toNat, BusData.width, accepted_csr, Csr.at_offset, BusData.toWord]

/-- A bus read of a word of a CSR slot (R120, R122). -/
theorem busRead_csr (s : State) (r : Csr) : busRead s r.addr .word = .value (.b32 (s.readCsr r)) := by
  unfold busRead
  simp only [Csr.addr_toNat, accepted_csr, Csr.at_offset]

end Sys2Proof.Machine
end

