-- ==== Sys2Proof/Laws/Colormap.lean ====
section
/-! SUPPORT. What the colormap's shared operations do: the clamp moves nothing (spec/43_colormap.md R184) and every pixel is
the palette entry of its own INT cell (R182, R183). -/

namespace Sys2Proof.Machine

/-- The clamp returns its argument, which is inside the palette (R184). -/
theorem palOffset_eq (i : Byte) {ch : Nat} (h : ch < 3) : palOffset i ch = 3 * i.toNat + ch ∧ 3 * i.toNat + ch < 768 := by
  have := i.isLt
  unfold palOffset clamp
  simp only [Config.palBytes]
  split <;> [omega; split <;> omega]

theorem palClamps_eq_false (i : Byte) {ch : Nat} (h : ch < 3) : palClamps i ch = false := by
  simp [palClamps, (palOffset_eq i h).1]

/-- No cell is clamped, so PALCLAMP is never raised (R184). -/
theorem clampsAny_eq_false (int : Memory) : clampsAny int = false :=
  forCells_keeps (fun b => b = false) rfl fun r c b _ _ hb => by
    simp [hb, palClamps_eq_false (int.intCell r c) (show 0 < 3 by omega),
      palClamps_eq_false (int.intCell r c) (show 1 < 3 by omega), palClamps_eq_false (int.intCell r c) (show 2 < 3 by omega)]

/-- Everything the mapping of one cell does to the COL bytes. -/
theorem mapCell_colByte (p : Byte) (int col : Memory) (r c r' c' ch : Nat) (hc : c < 160) (hc' : c' < 160) (hch : ch < 3) :
    (mapCell p int r c col).colByte r' c' ch =
      if r' = r ∧ c' = c then mapPx p (int.intCell r c) ch else col.colByte r' c' ch := by
  unfold mapCell
  rw [Memory.colByte_setColByte _ _ _ _ _ _ _ _ hc hc' (by omega) hch,
    Memory.colByte_setColByte _ _ _ _ _ _ _ _ hc hc' (by omega) hch,
    Memory.colByte_setColByte _ _ _ _ _ _ _ _ hc hc' (by omega) hch]
  by_cases h : r' = r ∧ c' = c
  · obtain ⟨rfl, rfl⟩ := h
    obtain rfl | rfl | rfl : ch = 0 ∨ ch = 1 ∨ ch = 2 := by omega
    all_goals simp
  · rw [if_neg h, if_neg (by tauto), if_neg (by tauto), if_neg (by tauto)]

/-- A COL byte after a mapping. -/
theorem mapGrid_colByte (p : Byte) (int col : Memory) {r c ch : Nat} (hr : r < 120) (hc : c < 160) (hch : ch < 3) :
    (mapGrid p int col).colByte r c ch = mapPx p (int.intCell r c) ch :=
  forCells_sets (fun (m : Memory) r c => m.colByte r c ch) (fun r c => mapPx p (int.intCell r c) ch)
    (fun r c y _ hc => by rw [mapCell_colByte p int y r c r c ch hc hc hch, if_pos ⟨rfl, rfl⟩])
    (fun r c y r' c' _ hc hc' h => by rw [mapCell_colByte p int y r c r' c' ch hc hc' hch, if_neg h]) hr hc

/-- A property of the COL grid that every write of a byte keeps is kept by a mapping. -/
theorem mapGrid_keeps (p : Byte) (int col : Memory) (P : Memory → Prop)
    (hset : ∀ m r c ch b, r < 120 → c < 160 → ch < 3 → P m → P (m.setColByte r c ch b)) (h : P col) :
    P (mapGrid p int col) :=
  forCells_keeps P h fun _ _ _ hr hc hm =>
    hset _ _ _ _ _ hr hc (by omega) (hset _ _ _ _ _ hr hc (by omega) (hset _ _ _ _ _ hr hc (by omega) hm))

theorem sound_mapGrid (p : Byte) (int : Memory) {col : Memory} (h : col.sound colHolds) :
    (mapGrid p int col).sound colHolds :=
  mapGrid_keeps p int col (fun m => m.sound colHolds)
    (fun _ _ _ _ b hr hc hch hm => Memory.sound_setColByte hm hr hc hch b) h

end Sys2Proof.Machine
end

