-- ==== Sys2Proof/Laws/Scaler.lean ====
section
/-! SUPPORT. What the scaler's shared operations do: the per-sample formula (spec/42_scaler.md R164, R167), the tracker
(R162) and the two ways the INT grid is written (R160, R165). -/

namespace Sys2Proof.Machine

/-! ### The per-sample formula -/

/-- The three branches of R164 as numbers. -/
theorem scalePx_eq (v emin emax : Half) :
    scalePx v emin emax =
      if v.toNat ≤ emin.toNat then 0#8 else if emax.toNat < v.toNat then 255#8
      else BitVec.ofNat 8 ((v.toNat - emin.toNat) * 255 / (emax.toNat - emin.toNat)) := rfl

/-- The quotient of the third branch fits a byte (R167). -/
theorem scale_quotient_le {v lo hi : Nat} (h : v ≤ hi) : (v - lo) * 255 / (hi - lo) ≤ 255 := by
  rcases Nat.eq_zero_or_pos (hi - lo) with h0 | h0
  · simp [h0]
  · exact (Nat.div_le_iff_le_mul_add_pred h0).mpr (by nlinarith [Nat.sub_le_sub_right h lo])

/-! ### The tracker -/

/-- A cell counts towards the range when it is not zero (R162). -/
abbrev Memory.tracked (m : Memory) (r c : Nat) : Prop := r < 120 ∧ c < 160 ∧ m.rawCell r c ≠ 0#16

/-- One cell seen: the bounds move just enough to hold it. -/
theorem Tracker.see_spec (t : Tracker) (v : Half) (hv : v ≠ 0#16) :
    (t.see v).tmin.toNat = min v.toNat t.tmin.toNat ∧ (t.see v).tmax.toNat = max v.toNat t.tmax.toNat := by
  rw [Tracker.see, if_neg hv]
  simp only [BitVec.lt_def]
  constructor <;> split <;> omega

/-- What the scan has found after the cells before `(R, C)`. -/
structure Tracker.Found (m : Memory) (R C : Nat) (t : Tracker) : Prop where
  bounds : ∀ r c, m.tracked r c → (r < R ∨ (r = R ∧ c < C)) →
    t.tmin.toNat ≤ (m.rawCell r c).toNat ∧ (m.rawCell r c).toNat ≤ t.tmax.toNat
  attained : (t = ⟨0xFFFF#16, 0x0000#16⟩ ∧ ∀ r c, m.tracked r c → ¬(r < R ∨ (r = R ∧ c < C))) ∨
    ((∃ r c, m.tracked r c ∧ t.tmin = m.rawCell r c) ∧ (∃ r c, m.tracked r c ∧ t.tmax = m.rawCell r c))

theorem Tracker.found_see {m : Memory} {r c : Nat} {t : Tracker} (hr : r < 120) (hc : c < 160) (h : Tracker.Found m r c t) :
    Tracker.Found m r (c + 1) (t.see (m.rawCell r c)) := by
  have hpos : ∀ r' c', (r' < r ∨ (r' = r ∧ c' < c + 1)) ↔ ((r' < r ∨ (r' = r ∧ c' < c)) ∨ (r' = r ∧ c' = c)) := by omega
  by_cases h0 : m.rawCell r c = 0#16
  · have hsee : t.see (m.rawCell r c) = t := by simp [Tracker.see, h0]
    have hnot : ∀ r' c', m.tracked r' c' → ¬(r' = r ∧ c' = c) := by
      rintro r' c' ⟨-, -, h3⟩ ⟨rfl, rfl⟩
      exact h3 h0
    rw [hsee]
    refine ⟨fun r' c' ht hp => h.bounds r' c' ht ?_, ?_⟩
    · rcases (hpos r' c').mp hp with hp | hp
      · exact hp
      · exact absurd hp (hnot r' c' ht)
    · rcases h.attained with ⟨he, hn⟩ | ha
      · refine .inl ⟨he, fun r' c' ht hp => ?_⟩
        rcases (hpos r' c').mp hp with hp | hp
        · exact hn r' c' ht hp
        · exact hnot r' c' ht hp
      · exact .inr ha
  · obtain ⟨hmin, hmax⟩ := t.see_spec (m.rawCell r c) h0
    have hself : m.tracked r c := ⟨hr, hc, h0⟩
    have hlt := (m.rawCell r c).isLt
    refine ⟨fun r' c' ht hp => ?_, .inr ⟨?_, ?_⟩⟩
    · rcases (hpos r' c').mp hp with hp | ⟨rfl, rfl⟩
      · have := h.bounds r' c' ht hp
        omega
      · omega
    · rcases h.attained with ⟨rfl, -⟩ | ⟨⟨r', c', ht, he⟩, -⟩
      · exact ⟨r, c, hself, BitVec.eq_of_toNat_eq (by rw [hmin]; simp; omega)⟩
      · rcases Nat.le_total (m.rawCell r c).toNat t.tmin.toNat with hle | hle
        · exact ⟨r, c, hself, BitVec.eq_of_toNat_eq (by omega)⟩
        · exact ⟨r', c', ht, BitVec.eq_of_toNat_eq (by rw [← he]; omega)⟩
    · rcases h.attained with ⟨rfl, -⟩ | ⟨-, ⟨r', c', ht, he⟩⟩
      · exact ⟨r, c, hself, BitVec.eq_of_toNat_eq (by rw [hmax]; simp)⟩
      · rcases Nat.le_total t.tmax.toNat (m.rawCell r c).toNat with hle | hle
        · exact ⟨r, c, hself, BitVec.eq_of_toNat_eq (by omega)⟩
        · exact ⟨r', c', ht, BitVec.eq_of_toNat_eq (by rw [← he]; omega)⟩

/-- What the whole scan finds. -/
theorem Memory.track_found (m : Memory) : Tracker.Found m 120 0 m.track :=
  forCells_induct (fun R C t => Tracker.Found m R C t) ⟨by omega, .inl ⟨rfl, by omega⟩⟩
    (fun _ _ _ hr hc h => Tracker.found_see hr hc h)
    fun R t _ h => ⟨fun r c ht hp => h.bounds r c ht (by have := ht.2.1; omega),
      h.attained.imp_left fun ⟨he, hn⟩ => ⟨he, fun r c ht hp => hn r c ht (by have := ht.2.1; omega)⟩⟩

/-! ### The INT grid -/

theorem scaleGrid_intCell (raw : Memory) (emin emax : Half) (int : Memory) {r c : Nat} (hr : r < 120) (hc : c < 160) :
    (scaleGrid raw emin emax int).intCell r c = scalePx (raw.rawCell r c) emin emax :=
  forCells_sets Memory.intCell (fun r c => scalePx (raw.rawCell r c) emin emax)
    (fun _ _ _ _ _ => Memory.intCell_setIntCell_same _ _ _ _)
    (fun _ _ _ _ _ _ hc hc' h => Memory.intCell_setIntCell_other _ _ hc hc' h) hr hc

theorem zeroGrid_intCell (int : Memory) {r c : Nat} (hr : r < 120) (hc : c < 160) : (zeroGrid int).intCell r c = 0#8 :=
  forCells_sets Memory.intCell (fun _ _ => 0#8) (fun _ _ _ _ _ => Memory.intCell_setIntCell_same _ _ _ _)
    (fun _ _ _ _ _ _ hc hc' h => Memory.intCell_setIntCell_other _ _ hc hc' h) hr hc

/-- A property of the INT grid that every write of a cell keeps is kept by a scaling. -/
theorem scaleGrid_keeps (raw : Memory) (emin emax : Half) (int : Memory) (P : Memory → Prop)
    (hset : ∀ m r c b, r < 120 → c < 160 → P m → P (m.setIntCell r c b)) (h : P int) : P (scaleGrid raw emin emax int) :=
  forCells_keeps P h fun _ _ _ hr hc hm => hset _ _ _ _ hr hc hm

theorem zeroGrid_keeps (int : Memory) (P : Memory → Prop)
    (hset : ∀ m r c b, r < 120 → c < 160 → P m → P (m.setIntCell r c b)) (h : P int) : P (zeroGrid int) :=
  forCells_keeps P h fun _ _ _ hr hc hm => hset _ _ _ _ hr hc hm

theorem sound_scaleGrid (raw : Memory) (emin emax : Half) {int : Memory} (h : int.sound intHolds) :
    (scaleGrid raw emin emax int).sound intHolds :=
  scaleGrid_keeps raw emin emax int (fun m => m.sound intHolds)
    (fun _ _ _ b hr hc hm => Memory.sound_setIntCell hm hr hc b) h

theorem sound_zeroGrid {int : Memory} (h : int.sound intHolds) : (zeroGrid int).sound intHolds :=
  zeroGrid_keeps int (fun m => m.sound intHolds) (fun _ _ _ b hr hc hm => Memory.sound_setIntCell hm hr hc b) h

end Sys2Proof.Machine
end

