-- ==== Sys2Proof/Laws/Commands.lean ====
section
/-! SUPPORT. The bodies of the commands field by field, and what each command answers in each of its cases. -/

namespace Sys2Proof.Machine

/-! ### priming: the priming cycle (R143) -/

@[simp] theorem State.priming_prime (s : State) : s.priming.prime = false := rfl
@[simp] theorem State.priming_segv (s : State) : s.priming.segv = 0#4 := rfl
@[simp] theorem State.priming_rawv (s : State) : s.priming.rawv = s.rawv := rfl
@[simp] theorem State.priming_intv (s : State) : s.priming.intv = s.intv := rfl
@[simp] theorem State.priming_colv (s : State) : s.priming.colv = s.colv := rfl
@[simp] theorem State.priming_dropped (s : State) : s.priming.dropped = s.dropped := rfl
@[simp] theorem State.priming_degen (s : State) : s.priming.degen = s.degen := rfl
@[simp] theorem State.priming_palclamp (s : State) : s.priming.palclamp = s.palclamp := rfl
@[simp] theorem State.priming_lenerr (s : State) : s.priming.lenerr = s.lenerr := rfl
@[simp] theorem State.priming_seqerr (s : State) : s.priming.seqerr = s.seqerr := rfl
@[simp] theorem State.priming_illcmd (s : State) : s.priming.illcmd = s.illcmd := rfl
@[simp] theorem State.priming_cfgerr (s : State) : s.priming.cfgerr = s.cfgerr := rfl
@[simp] theorem State.priming_rangeMin (s : State) : s.priming.rangeMin = s.rangeMin := rfl
@[simp] theorem State.priming_rangeMax (s : State) : s.priming.rangeMax = s.rangeMax := rfl
@[simp] theorem State.priming_autoMin (s : State) : s.priming.autoMin = s.autoMin := rfl
@[simp] theorem State.priming_autoMax (s : State) : s.priming.autoMax = s.autoMax := rfl
@[simp] theorem State.priming_palsel (s : State) : s.priming.palsel = s.palsel := rfl
@[simp] theorem State.priming_dropFrame (s : State) : s.priming.dropFrame = s.dropFrame := rfl
@[simp] theorem State.priming_dropTotal (s : State) : s.priming.dropTotal = s.dropTotal := rfl
@[simp] theorem State.priming_frames (s : State) : s.priming.frames = s.frames := rfl
@[simp] theorem State.priming_effMin (s : State) : s.priming.effMin = s.effMin := rfl
@[simp] theorem State.priming_effMax (s : State) : s.priming.effMax = s.effMax := rfl
@[simp] theorem State.priming_shelf (s : State) : s.priming.shelf = s.shelf := rfl
@[simp] theorem State.priming_raw (s : State) : s.priming.raw = s.raw := rfl
@[simp] theorem State.priming_int (s : State) : s.priming.int = s.int := rfl
@[simp] theorem State.priming_col (s : State) : s.priming.col = s.col := rfl
@[simp] theorem State.priming_script (s : State) : s.priming.script = s.script := rfl
@[simp] theorem State.priming_responses (s : State) : s.priming.responses = s.responses := rfl

/-! ### finish (R149) -/

@[simp] theorem State.finish_prime (s : State) (count : Nat) : (s.finish count).prime = s.prime :=
  by simp [State.finish]
@[simp] theorem State.finish_segv (s : State) (count : Nat) : (s.finish count).segv = 0#4 := by simp [State.finish]
@[simp] theorem State.finish_rawv (s : State) (count : Nat) : (s.finish count).rawv = true :=
  by simp [State.finish]
@[simp] theorem State.finish_intv (s : State) (count : Nat) : (s.finish count).intv = false :=
  by simp [State.finish]
@[simp] theorem State.finish_colv (s : State) (count : Nat) : (s.finish count).colv = false :=
  by simp [State.finish]
@[simp] theorem State.finish_dropped (s : State) (count : Nat) : (s.finish count).dropped = (s.dropped || (count != 0)) :=
  by simp [State.finish]
@[simp] theorem State.finish_degen (s : State) (count : Nat) : (s.finish count).degen = s.degen :=
  by simp [State.finish]
@[simp] theorem State.finish_palclamp (s : State) (count : Nat) : (s.finish count).palclamp = s.palclamp :=
  by simp [State.finish]
@[simp] theorem State.finish_lenerr (s : State) (count : Nat) : (s.finish count).lenerr = s.lenerr :=
  by simp [State.finish]
@[simp] theorem State.finish_seqerr (s : State) (count : Nat) : (s.finish count).seqerr = s.seqerr :=
  by simp [State.finish]
@[simp] theorem State.finish_illcmd (s : State) (count : Nat) : (s.finish count).illcmd = s.illcmd :=
  by simp [State.finish]
@[simp] theorem State.finish_cfgerr (s : State) (count : Nat) : (s.finish count).cfgerr = s.cfgerr :=
  by simp [State.finish]
@[simp] theorem State.finish_rangeMin (s : State) (count : Nat) : (s.finish count).rangeMin = s.rangeMin :=
  by simp [State.finish]
@[simp] theorem State.finish_rangeMax (s : State) (count : Nat) : (s.finish count).rangeMax = s.rangeMax :=
  by simp [State.finish]
@[simp] theorem State.finish_autoMin (s : State) (count : Nat) : (s.finish count).autoMin = s.autoMin :=
  by simp [State.finish]
@[simp] theorem State.finish_autoMax (s : State) (count : Nat) : (s.finish count).autoMax = s.autoMax :=
  by simp [State.finish]
@[simp] theorem State.finish_palsel (s : State) (count : Nat) : (s.finish count).palsel = s.palsel :=
  by simp [State.finish]
@[simp] theorem State.finish_dropFrame (s : State) (count : Nat) : (s.finish count).dropFrame = BitVec.ofNat 16 count :=
  by simp [State.finish]
@[simp] theorem State.finish_dropTotal (s : State) (count : Nat) : (s.finish count).dropTotal = s.dropTotal + BitVec.ofNat 32 count :=
  by simp [State.finish]
@[simp] theorem State.finish_frames (s : State) (count : Nat) : (s.finish count).frames = s.frames + 1#32 :=
  by simp [State.finish]
@[simp] theorem State.finish_effMin (s : State) (count : Nat) : (s.finish count).effMin = s.effMin :=
  by simp [State.finish]
@[simp] theorem State.finish_effMax (s : State) (count : Nat) : (s.finish count).effMax = s.effMax :=
  by simp [State.finish]
@[simp] theorem State.finish_shelf (s : State) (count : Nat) : (s.finish count).shelf = s.shelf :=
  by simp [State.finish]
@[simp] theorem State.finish_raw (s : State) (count : Nat) : (s.finish count).raw = s.raw := by simp [State.finish]
@[simp] theorem State.finish_int (s : State) (count : Nat) : (s.finish count).int = s.int := by simp [State.finish]
@[simp] theorem State.finish_col (s : State) (count : Nat) : (s.finish count).col = s.col := by simp [State.finish]
@[simp] theorem State.finish_script (s : State) (count : Nat) : (s.finish count).script = s.script :=
  by simp [State.finish]
@[simp] theorem State.finish_responses (s : State) (count : Nat) : (s.finish count).responses = s.responses :=
  by simp [State.finish]

/-! ### deliver: a delivered assembly (R144, R149) -/

@[simp] theorem State.deliver_prime (s : State) : s.deliver.prime = s.prime := by simp [State.deliver, assemble_count]
@[simp] theorem State.deliver_segv (s : State) : s.deliver.segv = 0#4 := by simp [State.deliver, assemble_count]
@[simp] theorem State.deliver_rawv (s : State) : s.deliver.rawv = true := by simp [State.deliver, assemble_count]
@[simp] theorem State.deliver_intv (s : State) : s.deliver.intv = false := by simp [State.deliver, assemble_count]
@[simp] theorem State.deliver_colv (s : State) : s.deliver.colv = false := by simp [State.deliver, assemble_count]
@[simp] theorem State.deliver_dropped (s : State) : s.deliver.dropped = (s.dropped || (s.shelf.truncatedPackets != 0)) :=
  by simp [State.deliver, assemble_count]
@[simp] theorem State.deliver_degen (s : State) : s.deliver.degen = s.degen := by simp [State.deliver, assemble_count]
@[simp] theorem State.deliver_palclamp (s : State) : s.deliver.palclamp = s.palclamp := by simp [State.deliver, assemble_count]
@[simp] theorem State.deliver_lenerr (s : State) : s.deliver.lenerr = s.lenerr := by simp [State.deliver, assemble_count]
@[simp] theorem State.deliver_seqerr (s : State) : s.deliver.seqerr = s.seqerr := by simp [State.deliver, assemble_count]
@[simp] theorem State.deliver_illcmd (s : State) : s.deliver.illcmd = s.illcmd := by simp [State.deliver, assemble_count]
@[simp] theorem State.deliver_cfgerr (s : State) : s.deliver.cfgerr = s.cfgerr := by simp [State.deliver, assemble_count]
@[simp] theorem State.deliver_rangeMin (s : State) : s.deliver.rangeMin = s.rangeMin := by simp [State.deliver, assemble_count]
@[simp] theorem State.deliver_rangeMax (s : State) : s.deliver.rangeMax = s.rangeMax := by simp [State.deliver, assemble_count]
@[simp] theorem State.deliver_autoMin (s : State) : s.deliver.autoMin = s.autoMin := by simp [State.deliver, assemble_count]
@[simp] theorem State.deliver_autoMax (s : State) : s.deliver.autoMax = s.autoMax := by simp [State.deliver, assemble_count]
@[simp] theorem State.deliver_palsel (s : State) : s.deliver.palsel = s.palsel := by simp [State.deliver, assemble_count]
@[simp] theorem State.deliver_dropFrame (s : State) : s.deliver.dropFrame = BitVec.ofNat 16 s.shelf.truncatedPackets :=
  by simp [State.deliver, assemble_count]
@[simp] theorem State.deliver_dropTotal (s : State) : s.deliver.dropTotal = s.dropTotal + BitVec.ofNat 32 s.shelf.truncatedPackets :=
  by simp [State.deliver, assemble_count]
@[simp] theorem State.deliver_frames (s : State) : s.deliver.frames = s.frames + 1#32 := by simp [State.deliver, assemble_count]
@[simp] theorem State.deliver_effMin (s : State) : s.deliver.effMin = s.effMin := by simp [State.deliver, assemble_count]
@[simp] theorem State.deliver_effMax (s : State) : s.deliver.effMax = s.effMax := by simp [State.deliver, assemble_count]
@[simp] theorem State.deliver_shelf (s : State) : s.deliver.shelf = s.shelf := by simp [State.deliver, assemble_count]
@[simp] theorem State.deliver_raw (s : State) : s.deliver.raw = (assemble s.shelf s.raw).raw :=
  by simp [State.deliver, assemble_count]
@[simp] theorem State.deliver_int (s : State) : s.deliver.int = s.int := by simp [State.deliver, assemble_count]
@[simp] theorem State.deliver_col (s : State) : s.deliver.col = s.col := by simp [State.deliver, assemble_count]
@[simp] theorem State.deliver_script (s : State) : s.deliver.script = s.script := by simp [State.deliver, assemble_count]
@[simp] theorem State.deliver_responses (s : State) : s.deliver.responses = s.responses := by simp [State.deliver, assemble_count]

/-! ### scaleBody: an executed SCALE (R160) -/

@[simp] theorem State.scaleBody_prime (s : State) : s.scaleBody.prime = s.prime := by simp [State.scaleBody]
@[simp] theorem State.scaleBody_segv (s : State) : s.scaleBody.segv = s.segv := by simp [State.scaleBody]
@[simp] theorem State.scaleBody_rawv (s : State) : s.scaleBody.rawv = s.rawv := by simp [State.scaleBody]
@[simp] theorem State.scaleBody_intv (s : State) : s.scaleBody.intv = true := by simp [State.scaleBody]
@[simp] theorem State.scaleBody_colv (s : State) : s.scaleBody.colv = false := by simp [State.scaleBody]
@[simp] theorem State.scaleBody_dropped (s : State) : s.scaleBody.dropped = s.dropped := by simp [State.scaleBody]
@[simp] theorem State.scaleBody_degen (s : State) : s.scaleBody.degen = (s.degen || (s.upperBound == s.lowerBound)) :=
  by simp [State.scaleBody]
@[simp] theorem State.scaleBody_palclamp (s : State) : s.scaleBody.palclamp = s.palclamp :=
  by simp [State.scaleBody]
@[simp] theorem State.scaleBody_lenerr (s : State) : s.scaleBody.lenerr = s.lenerr := by simp [State.scaleBody]
@[simp] theorem State.scaleBody_seqerr (s : State) : s.scaleBody.seqerr = s.seqerr := by simp [State.scaleBody]
@[simp] theorem State.scaleBody_illcmd (s : State) : s.scaleBody.illcmd = s.illcmd := by simp [State.scaleBody]
@[simp] theorem State.scaleBody_cfgerr (s : State) : s.scaleBody.cfgerr = s.cfgerr := by simp [State.scaleBody]
@[simp] theorem State.scaleBody_rangeMin (s : State) : s.scaleBody.rangeMin = s.rangeMin :=
  by simp [State.scaleBody]
@[simp] theorem State.scaleBody_rangeMax (s : State) : s.scaleBody.rangeMax = s.rangeMax :=
  by simp [State.scaleBody]
@[simp] theorem State.scaleBody_autoMin (s : State) : s.scaleBody.autoMin = s.autoMin := by simp [State.scaleBody]
@[simp] theorem State.scaleBody_autoMax (s : State) : s.scaleBody.autoMax = s.autoMax := by simp [State.scaleBody]
@[simp] theorem State.scaleBody_palsel (s : State) : s.scaleBody.palsel = s.palsel := by simp [State.scaleBody]
@[simp] theorem State.scaleBody_dropFrame (s : State) : s.scaleBody.dropFrame = s.dropFrame :=
  by simp [State.scaleBody]
@[simp] theorem State.scaleBody_dropTotal (s : State) : s.scaleBody.dropTotal = s.dropTotal :=
  by simp [State.scaleBody]
@[simp] theorem State.scaleBody_frames (s : State) : s.scaleBody.frames = s.frames := by simp [State.scaleBody]
@[simp] theorem State.scaleBody_effMin (s : State) : s.scaleBody.effMin = s.lowerBound := by simp [State.scaleBody]
@[simp] theorem State.scaleBody_effMax (s : State) : s.scaleBody.effMax = s.upperBound := by simp [State.scaleBody]
@[simp] theorem State.scaleBody_shelf (s : State) : s.scaleBody.shelf = s.shelf := by simp [State.scaleBody]
@[simp] theorem State.scaleBody_raw (s : State) : s.scaleBody.raw = s.raw := by simp [State.scaleBody]
@[simp] theorem State.scaleBody_int (s : State) : s.scaleBody.int = if s.upperBound = s.lowerBound then zeroGrid s.int else scaleGrid s.raw s.lowerBound s.upperBound s.int :=
  by simp [State.scaleBody]
@[simp] theorem State.scaleBody_col (s : State) : s.scaleBody.col = s.col := by simp [State.scaleBody]
@[simp] theorem State.scaleBody_script (s : State) : s.scaleBody.script = s.script := by simp [State.scaleBody]
@[simp] theorem State.scaleBody_responses (s : State) : s.scaleBody.responses = s.responses :=
  by simp [State.scaleBody]

/-! ### mapBody: an executed MAP (R180); PALCLAMP is never raised (R184) -/

@[simp] theorem State.mapBody_prime (s : State) : s.mapBody.prime = s.prime := by simp [State.mapBody, clampsAny_eq_false]
@[simp] theorem State.mapBody_segv (s : State) : s.mapBody.segv = s.segv := by simp [State.mapBody, clampsAny_eq_false]
@[simp] theorem State.mapBody_rawv (s : State) : s.mapBody.rawv = s.rawv := by simp [State.mapBody, clampsAny_eq_false]
@[simp] theorem State.mapBody_intv (s : State) : s.mapBody.intv = s.intv := by simp [State.mapBody, clampsAny_eq_false]
@[simp] theorem State.mapBody_colv (s : State) : s.mapBody.colv = true := by simp [State.mapBody, clampsAny_eq_false]
@[simp] theorem State.mapBody_dropped (s : State) : s.mapBody.dropped = s.dropped := by simp [State.mapBody, clampsAny_eq_false]
@[simp] theorem State.mapBody_degen (s : State) : s.mapBody.degen = s.degen := by simp [State.mapBody, clampsAny_eq_false]
@[simp] theorem State.mapBody_palclamp (s : State) : s.mapBody.palclamp = s.palclamp := by simp [State.mapBody, clampsAny_eq_false]
@[simp] theorem State.mapBody_lenerr (s : State) : s.mapBody.lenerr = s.lenerr := by simp [State.mapBody, clampsAny_eq_false]
@[simp] theorem State.mapBody_seqerr (s : State) : s.mapBody.seqerr = s.seqerr := by simp [State.mapBody, clampsAny_eq_false]
@[simp] theorem State.mapBody_illcmd (s : State) : s.mapBody.illcmd = s.illcmd := by simp [State.mapBody, clampsAny_eq_false]
@[simp] theorem State.mapBody_cfgerr (s : State) : s.mapBody.cfgerr = s.cfgerr := by simp [State.mapBody, clampsAny_eq_false]
@[simp] theorem State.mapBody_rangeMin (s : State) : s.mapBody.rangeMin = s.rangeMin := by simp [State.mapBody, clampsAny_eq_false]
@[simp] theorem State.mapBody_rangeMax (s : State) : s.mapBody.rangeMax = s.rangeMax := by simp [State.mapBody, clampsAny_eq_false]
@[simp] theorem State.mapBody_autoMin (s : State) : s.mapBody.autoMin = s.autoMin := by simp [State.mapBody, clampsAny_eq_false]
@[simp] theorem State.mapBody_autoMax (s : State) : s.mapBody.autoMax = s.autoMax := by simp [State.mapBody, clampsAny_eq_false]
@[simp] theorem State.mapBody_palsel (s : State) : s.mapBody.palsel = s.palsel := by simp [State.mapBody, clampsAny_eq_false]
@[simp] theorem State.mapBody_dropFrame (s : State) : s.mapBody.dropFrame = s.dropFrame := by simp [State.mapBody, clampsAny_eq_false]
@[simp] theorem State.mapBody_dropTotal (s : State) : s.mapBody.dropTotal = s.dropTotal := by simp [State.mapBody, clampsAny_eq_false]
@[simp] theorem State.mapBody_frames (s : State) : s.mapBody.frames = s.frames := by simp [State.mapBody, clampsAny_eq_false]
@[simp] theorem State.mapBody_effMin (s : State) : s.mapBody.effMin = s.effMin := by simp [State.mapBody, clampsAny_eq_false]
@[simp] theorem State.mapBody_effMax (s : State) : s.mapBody.effMax = s.effMax := by simp [State.mapBody, clampsAny_eq_false]
@[simp] theorem State.mapBody_shelf (s : State) : s.mapBody.shelf = s.shelf := by simp [State.mapBody, clampsAny_eq_false]
@[simp] theorem State.mapBody_raw (s : State) : s.mapBody.raw = s.raw := by simp [State.mapBody, clampsAny_eq_false]
@[simp] theorem State.mapBody_int (s : State) : s.mapBody.int = s.int := by simp [State.mapBody, clampsAny_eq_false]
@[simp] theorem State.mapBody_col (s : State) : s.mapBody.col = mapGrid s.palsel s.int s.col :=
  by simp [State.mapBody, clampsAny_eq_false]
@[simp] theorem State.mapBody_script (s : State) : s.mapBody.script = s.script := by simp [State.mapBody, clampsAny_eq_false]
@[simp] theorem State.mapBody_responses (s : State) : s.mapBody.responses = s.responses := by simp [State.mapBody, clampsAny_eq_false]

/-! ### The cases of each command -/

/-- A complete cycle is SEGV = 0b1111 (R96). -/
@[simp] theorem State.allCommitted_iff (s : State) : s.allCommitted = true ↔ s.segv = 0b1111#4 := by
  simp [State.allCommitted]

theorem execAsm_refused {s : State} (h : s.segv ≠ 0b1111#4) : execAsm s = .next s.refuseCommand := by
  simp [execAsm, State.allCommitted, h]

theorem execAsm_priming {s : State} (h : s.segv = 0b1111#4) (hp : s.prime = true) : execAsm s = .next s.priming := by
  simp [execAsm, State.allCommitted, h, hp]

theorem execAsm_deliver {s : State} (h : s.segv = 0b1111#4) (hp : s.prime = false) : execAsm s = .next s.deliver := by
  simp [execAsm, State.allCommitted, h, hp]

theorem execFrame_refused {s : State} (h : s.segv ≠ 0b1111#4) : execFrame s = .next s.refuseCommand := by
  simp [execFrame, State.allCommitted, h]

theorem execFrame_priming {s : State} (h : s.segv = 0b1111#4) (hp : s.prime = true) : execFrame s = .next s.priming := by
  simp [execFrame, State.allCommitted, h, hp]

theorem execFrame_deliver {s : State} (h : s.segv = 0b1111#4) (hp : s.prime = false) :
    execFrame s = .next s.deliver.scaleBody.mapBody := by
  simp [execFrame, State.allCommitted, h, hp]

theorem execScale_refused {s : State} (h : s.rawv = false) : execScale s = .next s.refuseCommand := by
  simp [execScale, h]

theorem execScale_executed {s : State} (h : s.rawv = true) : execScale s = .next s.scaleBody := by
  simp [execScale, h]

theorem execMap_refused {s : State} (h : s.intv = false) : execMap s = .next s.refuseCommand := by
  simp [execMap, h]

theorem execMap_executed {s : State} (h : s.intv = true) : execMap s = .next s.mapBody := by
  simp [execMap, h]

/-- SEGV after a RECV (R141), bit by bit. -/
theorem State.segv_setSegv (s : State) {seg k : Nat} (v : Bool) (hs : seg < 4) (hk : k < 4) :
    (s.setSegv seg v).segv.getLsbD k = if k = seg then v else s.segv.getLsbD k := by
  interval_cases seg <;> interval_cases k <;> cases v <;> simp [State.setSegv]

end Sys2Proof.Machine
end

