-- ==== Sys2Proof/Laws/Decode.lean ====
section
/-! SUPPORT. What the decoder answers, in terms of the rows of the opcode map (spec/30_encoding.md R103, R105). -/

namespace Sys2Proof

/-- No word fits two rows (R103): every mask covers bits 3:0, and the patterns differ there. -/
theorem opRows_disjoint :
    opRows.Pairwise fun r q => r.pattern &&& (r.mask &&& q.mask) ≠ q.pattern &&& (r.mask &&& q.mask) := by
  decide

/-- A decoded word fits a row, and the instruction is what the row reads from it. -/
theorem decode_ok_fits {w : Word} {i : Instr} (h : decode w = .ok i) : ∃ r ∈ opRows, r.fits w = true ∧ i = r.read w := by
  unfold decode at h
  split at h
  · next r hr =>
    refine ⟨r, List.mem_of_find?_eq_some hr, by simpa using List.find?_some hr, ?_⟩
    injection h with h
    exact h.symm
  · cases h

/-- A rejected word fits no row. -/
theorem decode_error_fits {w : Word} {e : Illegal} (h : decode w = .error e) : ∀ r ∈ opRows, r.fits w = false := by
  unfold decode at h
  split at h
  · cases h
  · next hn =>
    intro r hr
    simpa using List.find?_eq_none.mp hn r hr

/-- The word of RECV field by field (R101): reserved, LEN, reserved, SEG, OP. -/
theorem recvWord_eq_append {seg len : Nat} (hs : seg < 4) (hl : len < 65536) :
    BitVec.ofNat 32 (2 + 16 * seg + 256 * len) = 0#8 ++ BitVec.ofNat 16 len ++ 0#2 ++ BitVec.ofNat 2 seg ++ 2#4 := by
  apply BitVec.eq_of_toNat_eq
  simp only [BitVec.toNat_append, BitVec.toNat_ofNat]
  rw [Nat.mod_eq_of_lt (show 2 + 16 * seg + 256 * len < 2 ^ 32 by omega), Nat.mod_eq_of_lt (show len < 2 ^ 16 by omega),
    Nat.mod_eq_of_lt (show seg < 2 ^ 2 by omega)]
  have h1 : (0 % 2 ^ 8) <<< 16 ||| len = len := by simp
  have h2 : len <<< 2 ||| 0 % 2 ^ 2 = 4 * len := by simp [Nat.shiftLeft_eq]; omega
  have h3 : (4 * len) <<< 2 ||| seg = 16 * len + seg := by
    rw [← Nat.shiftLeft_add_eq_or_of_lt (by omega), Nat.shiftLeft_eq]; omega
  have h4 : (16 * len + seg) <<< 4 ||| 2 % 2 ^ 4 = 2 + 16 * seg + 256 * len := by
    rw [← Nat.shiftLeft_add_eq_or_of_lt (by omega), Nat.shiftLeft_eq]; omega
  rw [h1, h2, h3, h4]

end Sys2Proof
end

