-- ==== Sys2Proof/Laws/PerInstr.lean ====
section
/-! SUPPORT. The family EncodingFitsRow: the encoded word of every well-formed command fits the row of the opcode map that
stands for it (spec/30_encoding.md R103). One lemma for each constructor. -/

namespace Sys2Proof.Laws.EncodingFitsRow

/-- The place of a command's row in the opcode map. -/
def rowOf : Instr → Nat
  | .nop => 0
  | .srst => 1
  | .recv _ _ => 2
  | .asm => 3
  | .scale => 4
  | .map => 5
  | .frame => 6

/-- A well-formed command's word fits its row. -/
def Statement (i : Instr) : Prop := i.WellFormed → ∃ r ∈ opRows[rowOf i]?, r.fits (encode i) = true

theorem nop : Statement .nop := fun _ => ⟨_, rfl, by decide⟩

theorem srst : Statement .srst := fun _ => ⟨_, rfl, by decide⟩

theorem recv (seg len : Nat) : Statement (.recv seg len) := by
  intro h
  simp only [Instr.WellFormed, Instr.wellFormed, Bool.and_eq_true, decide_eq_true_eq] at h
  refine ⟨_, rfl, ?_⟩
  show ((BitVec.ofNat 32 (2 + 16 * seg + 256 * len)) &&& 0xFF0000CF#32 == 0x00000002#32) = true
  rw [recvWord_eq_append h.1 h.2, beq_iff_eq]
  apply BitVec.eq_of_getLsbD_eq
  intro i hi
  simp only [BitVec.getLsbD_and, BitVec.getLsbD_append]
  interval_cases i <;> simp

theorem asm : Statement .asm := fun _ => ⟨_, rfl, by decide⟩

theorem scale : Statement .scale := fun _ => ⟨_, rfl, by decide⟩

theorem map : Statement .map := fun _ => ⟨_, rfl, by decide⟩

theorem frame : Statement .frame := fun _ => ⟨_, rfl, by decide⟩

end Sys2Proof.Laws.EncodingFitsRow
end

