-- ==== Sys2Proof/Machine/ScriptText.lean ====
section
/-! DEFINITION. The text of a script (spec/30_encoding.md R107, R108): one operation a line, `;` starts a comment, numbers
are decimal or `0x` hexadecimal, names are the CSR names. A line is read as a list of characters; a line that is no script
line is rejected. Nothing of the machine depends on it (spec/92_eei_decisions.md D20). -/

namespace Sys2Proof.Machine.ScriptText

/-- The line before its comment. -/
def beforeComment (line : List Char) : List Char := line.takeWhile (fun c => c ≠ ';')

/-- What separates the words of a line: blanks, commas, and the brackets of RAWADDR(r,c). -/
def isSeparator (c : Char) : Bool := c == ' ' || c == '\t' || c == ',' || c == '(' || c == ')'

/-- The words of a line; `word` is the one being read, backwards. -/
def splitWords : List Char → (word : List Char) → List (List Char)
  | [], word => if word = [] then [] else [word.reverse]
  | c :: rest, word =>
    if isSeparator c then (if word = [] then splitWords rest [] else word.reverse :: splitWords rest [])
    else splitWords rest (c :: word)

/-- A digit of base 10 or 16. -/
def digit (base : Nat) (c : Char) : Option Nat :=
  let d := if '0' ≤ c ∧ c ≤ '9' then c.toNat - '0'.toNat
    else if 'a' ≤ c ∧ c ≤ 'f' then c.toNat - 'a'.toNat + 10
    else if 'A' ≤ c ∧ c ≤ 'F' then c.toNat - 'A'.toNat + 10
    else base
  if d < base then some d else none

/-- Digits, most significant first, after the value read so far. -/
def digits (base : Nat) : List Char → Nat → Option Nat
  | [], n => some n
  | c :: rest, n =>
    match digit base c with
    | some d => digits base rest (base * n + d)
    | none => none

/-- A number: decimal, or hexadecimal after `0x`. -/
def number : List Char → Option Nat
  | [] => none
  | '0' :: 'x' :: c :: rest => digits 16 (c :: rest) 0
  | c :: rest => digits 10 (c :: rest) 0

/-- The arguments of a line: numbers, and RAWADDR, INTADDR and COLADDR of numbers (R108). The numbers in their brackets are
plain ones (DESIGN CHOICE, log entry 10). -/
def arguments : List (List Char) → Option (List Nat)
  | [] => some []
  | ['R', 'A', 'W', 'A', 'D', 'D', 'R'] :: r :: c :: rest =>
    match number r, number c, arguments rest with
    | some r, some c, some l => some (rawAddr r c :: l)
    | _, _, _ => none
  | ['I', 'N', 'T', 'A', 'D', 'D', 'R'] :: r :: c :: rest =>
    match number r, number c, arguments rest with
    | some r, some c, some l => some (intAddr r c :: l)
    | _, _, _ => none
  | ['C', 'O', 'L', 'A', 'D', 'D', 'R'] :: r :: c :: ch :: rest =>
    match number r, number c, number ch, arguments rest with
    | some r, some c, some ch, some l => some (colAddr r c ch :: l)
    | _, _, _, _ => none
  | n :: rest =>
    match number n, arguments rest with
    | some n, some l => some (n :: l)
    | _, _ => none

/-- The CSR names of R22. -/
def csrNames : List (List Char × Csr) :=
  [(['C', 'M', 'D'], .cmd), (['S', 'T', 'A', 'T', 'U', 'S'], .status),
   (['R', 'A', 'N', 'G', 'E', '_', 'M', 'I', 'N'], .rangeMin), (['R', 'A', 'N', 'G', 'E', '_', 'M', 'A', 'X'], .rangeMax),
   (['M', 'O', 'D', 'E'], .mode), (['P', 'A', 'L', 'S', 'E', 'L'], .palsel),
   (['D', 'R', 'O', 'P', '_', 'F', 'R', 'A', 'M', 'E'], .dropFrame),
   (['D', 'R', 'O', 'P', '_', 'T', 'O', 'T', 'A', 'L'], .dropTotal), (['F', 'R', 'A', 'M', 'E', 'S'], .frames),
   (['E', 'F', 'F', '_', 'M', 'I', 'N'], .effMin), (['E', 'F', 'F', '_', 'M', 'A', 'X'], .effMax),
   (['G', 'E', 'O', 'M'], .geom), (['N', 'P', 'A', 'L'], .npal)]

/-- The CSR of a name. -/
def csr (name : List Char) : Option Csr := (csrNames.find? fun p => p.1 == name).map Prod.snd

/-- One line, if its numbers fit their fields. -/
def lineIf (fits : Bool) (l : List ScriptLine) : Option (List ScriptLine) := if fits then some l else none

/-- The operations and pseudo-operations whose arguments are numbers (R107, R108); LOADSEG takes a function and has no
text. -/
def numeric (name : List Char) (args : List Nat) : Option (List ScriptLine) :=
  match name, args with
  | ['W', 'B'], [a, b] => lineIf (decide (a < 2 ^ 19) && decide (b < 256)) [.wb (BitVec.ofNat 19 a) (BitVec.ofNat 8 b)]
  | ['R', 'B'], [a] => lineIf (decide (a < 2 ^ 19)) [.rb (BitVec.ofNat 19 a)]
  | ['R', 'H'], [a] => lineIf (decide (a < 2 ^ 19)) [.rh (BitVec.ofNat 19 a)]
  | ['N', 'O', 'P'], [] => some [.command .nop]
  | ['S', 'R', 'S', 'T'], [] => some [.command .srst]
  | ['R', 'E', 'C', 'V'], [s, l] => lineIf (Instr.recv s l).wellFormed [.command (.recv s l)]
  | ['R', 'E', 'C', 'V'], [s] => lineIf (decide (s < 4)) (Script.recv s)
  | ['A', 'S', 'M'], [] => some [.command .asm]
  | ['S', 'C', 'A', 'L', 'E'], [] => some [.command .scale]
  | ['M', 'A', 'P'], [] => some [.command .map]
  | ['F', 'R', 'A', 'M', 'E'], [] => some [.command .frame]
  | ['H', 'R', 'E', 'S', 'E', 'T'], [] => some [.hreset]
  | ['P', 'U', 'T'], [s, i, v] =>
    lineIf (decide (s < 4) && decide (i < 4920) && decide (v < 65536)) (Script.put s i (BitVec.ofNat 16 v))
  | ['F', 'I', 'L', 'L', 'S', 'E', 'G'], [s, h, v] =>
    lineIf (decide (s < 4) && decide (h < 65536) && decide (v < 65536))
      (Script.fillSeg s (BitVec.ofNat 16 h) (BitVec.ofNat 16 v))
  | ['C', 'L', 'R', 'F', 'L', 'A', 'G', 'S'], [] => some Script.clrFlags
  | ['C', 'Y', 'C', 'L', 'E'], [h, v] =>
    lineIf (decide (h < 65536) && decide (v < 65536)) (Script.cycle (BitVec.ofNat 16 h) (BitVec.ofNat 16 v))
  | _, _ => none

/-- The words of a line as script lines; an empty line is none. RAWADDR, INTADDR and COLADDR are numbers (R108) in every line
with a number, WR among them. -/
def readWords : List (List Char) → Option (List ScriptLine)
  | [] => some []
  | [['R', 'D'], r] => (csr r).map fun r => [.rd r]
  | ['W', 'R'] :: r :: args =>
    match csr r, arguments args with
    | some r, some [v] => lineIf (decide (v < 2 ^ 32)) [.wr r (BitVec.ofNat 32 v)]
    | _, _ => none
  | name :: args =>
    match arguments args with
    | some l => numeric name l
    | none => none

/-- One line of a script. -/
def readLine (line : List Char) : Option (List ScriptLine) := readWords (splitWords (beforeComment line) [])

end Sys2Proof.Machine.ScriptText
end

