-- ==== Sys2Proof/Tests/Slice0.lean ====
section
/-! SUPPORT. The model's own tests. Expected values are those of spec/95_test_vectors.md, of the table of R171 and of the
encodings of R101 and R103. After them, for each statement with hypotheses, a state and operands that meet them. A write to
a memory compares with the opaque power-on byte, so the kernel cannot evaluate it: those witnesses cite the laws of reading
instead. -/

namespace Sys2Proof.Tests

open Sys2Proof Sys2Proof.Machine

/-- The machine after reset, when the host is about to do these operations. -/
def hostDoes (ops : List HostOp) : State := { State.reset with script := ops }

/-- The host writes this word to CMD. -/
def cmd (w : Word) : HostOp := .write 0#19 (.b32 w)

/-- STATUS after `n` steps. -/
def statusAfter (n : Nat) (s : State) : Option Word :=
  match Sys2Proof.core.run n s with
  | .next t => some t.statusWord
  | .fault _ => none
  | .refused _ => none

/-! ### Well-formed terms -/

theorem test_seg_out_of_range : Instr.wellFormed (.recv 4 9840) = false := by decide
theorem test_len_out_of_range : Instr.wellFormed (.recv 0 65536) = false := by decide
theorem test_wellFormed_recv_edge : Instr.wellFormed (.recv 3 65535) = true := by decide

/-! ### Decoding: words written out field by field (R101: reserved 31:24, LEN 23:8, reserved 7:6, SEG 5:4, OP 3:0) -/

theorem test_decode_nop : decode (0#8 ++ 0#16 ++ 0#2 ++ 0#2 ++ 0x0#4) = .ok .nop := by rfl
theorem test_decode_srst : decode (0#8 ++ 0#16 ++ 0#2 ++ 0#2 ++ 0x1#4) = .ok .srst := by rfl
theorem test_decode_recv : decode (0#8 ++ 0x2670#16 ++ 0#2 ++ 0b10#2 ++ 0x2#4) = .ok (.recv 2 9840) := by rfl
theorem test_decode_recv_short : decode 0x00232802#32 = .ok (.recv 0 9000) := by rfl
theorem test_decode_asm : decode (0#8 ++ 0#16 ++ 0#2 ++ 0#2 ++ 0x3#4) = .ok .asm := by rfl
theorem test_decode_scale : decode (0#8 ++ 0#16 ++ 0#2 ++ 0#2 ++ 0x4#4) = .ok .scale := by rfl
theorem test_decode_map : decode (0#8 ++ 0#16 ++ 0#2 ++ 0#2 ++ 0x5#4) = .ok .map := by rfl
theorem test_decode_frame : decode (0#8 ++ 0#16 ++ 0#2 ++ 0#2 ++ 0x6#4) = .ok .frame := by rfl

theorem test_illegal_bit6 : decode 0x00267042#32 = .error .recvReservedBits := by rfl
theorem test_illegal_bit24 : decode 0x01267002#32 = .error .recvReservedBits := by rfl
theorem test_illegal_stray_seg : decode 0x00000013#32 = .error .strayBits := by rfl
theorem test_illegal_top_bit : decode 0x80000000#32 = .error .strayBits := by rfl
theorem test_illegal_op7 : decode 0x00000007#32 = .error .reservedOp := by rfl
theorem test_illegal_all_ones : decode 0xFFFFFFFF#32 = .error .reservedOp := by rfl

theorem test_encode_recv : encode (.recv 3 9840) = 0x00267032#32 := by decide
theorem test_table_word : decodeTableWord 32 0x00267012 = some (.recv 1 9840) := by decide
theorem test_table_word_illegal : decodeTableWord 32 0x00000103 = none := by decide

/-! ### The map (2.1) -/

theorem test_map_csr : (accepted 0x0003C .word).isSome = true ∧ (accepted 0x00040 .word).isSome = false ∧
    (accepted 0x00006 .word).isSome = false ∧ (accepted 0x00004 .half).isSome = false := by decide
theorem test_map_shelf : (accepted 0x1E66F .byte).isSome = true ∧ (accepted 0x12670 .byte).isSome = false ∧
    (accepted 0x1C000 .half).isSome = false := by decide
theorem test_map_raw : (accepted 0x295FE .half).isSome = true ∧ (accepted 0x29600 .half).isSome = false ∧
    (accepted 0x20001 .half).isSome = false ∧ (accepted 0x20000 .byte).isSome = false := by decide
theorem test_map_bytes : (accepted 0x34AFF .byte).isSome = true ∧ (accepted 0x34B00 .byte).isSome = false ∧
    (accepted 0x4E0FF .byte).isSome = true ∧ (accepted 0x4E100 .byte).isSome = false ∧
    (accepted 0x502FF .byte).isSome = true ∧ (accepted 0x50300 .byte).isSome = false := by decide
theorem test_addresses : rawAddr 29 159 = 0x2257E ∧ intAddr 1 89 = 0x300F9 ∧ colAddr 1 89 0 = 0x402EB ∧
    shelfAddr 2 4 = 0x18004 := by decide

/-! ### CSRs and commands (2.2, 2.4, P4) -/

theorem test_reset_status : State.reset.statusWord = 0x00000001#32 := by decide
theorem test_range_min_upper_half_ignored :
    step (hostDoes [.write 0x00008#19 (.b32 0x12345678#32)]) =
      .next { State.reset with rangeMin := 0x5678#16, responses := [.ok] } := by rfl
theorem test_mode_read_back :
    Sys2Proof.core.run 2 (hostDoes [.write 0x00010#19 (.b32 2#32), .read 0x00010#19 .word]) =
      .next { State.reset with autoMax := true, responses := [.value (.b32 2#32), .ok] } := by rfl
theorem test_status_clear : (State.clearFlags { State.reset with cfgerr := true } 0x000040FF#32).statusWord = 1#32 := by decide

theorem test_nop : statusAfter 1 (hostDoes [cmd 0x00000000#32]) = some 0x00000001#32 := by decide
theorem test_srst : (State.statusWord <$> (match exec .srst { State.reset with
    prime := false, segv := 0b0111#4, rawv := true, intv := true, colv := true } with
      | .next t => some t | .fault _ => none | .refused _ => none)) = some 0x000000E1#32 := by decide
theorem test_recv_commits : statusAfter 1 (hostDoes [cmd 0x00267022#32]) = some 0x00000009#32 := by decide
theorem test_recv_bad_length : statusAfter 2 (hostDoes [cmd 0x00267022#32, cmd 0x00232822#32]) = some 0x00000801#32 := by decide
theorem test_asm_refused : statusAfter 1 (hostDoes [cmd 0x00000003#32]) = some 0x00001001#32 := by decide
theorem test_asm_priming : statusAfter 5 (hostDoes [cmd 0x00267002#32, cmd 0x00267012#32, cmd 0x00267022#32,
    cmd 0x00267032#32, cmd 0x00000003#32]) = some 0x00000000#32 := by decide
theorem test_scale_refused : statusAfter 1 (hostDoes [cmd 0x00000004#32]) = some 0x00001001#32 := by decide
theorem test_map_refused : statusAfter 1 (hostDoes [cmd 0x00000005#32]) = some 0x00001001#32 := by decide
theorem test_frame_priming : statusAfter 5 (hostDoes [cmd 0x00267002#32, cmd 0x00267012#32, cmd 0x00267022#32,
    cmd 0x00267032#32, cmd 0x00000006#32]) = some 0x00000000#32 := by decide
theorem test_illegal_command : statusAfter 1 (hostDoes [cmd 0x00000007#32]) = some 0x00002001#32 := by decide
theorem test_first_instruction :
    step (State.reset.withFetchWord 32 0x00267012) =
      .next { State.reset with segv := 0b0010#4, responses := [.ok] } := by rfl

/-! ### Placement (2.5) and scaling (R171) -/

theorem test_place_first : placeRow 3 (sampleIndex 0 2) = 90 ∧ placeColumn (sampleIndex 0 2) = 0 := by decide
theorem test_place_last : placeRow 3 4919 = 119 ∧ placeColumn 4919 = 159 := by decide
theorem test_scale_source_example : scalePx 28672#16 27300#16 30800#16 = 99#8 := by decide
theorem test_scale_floor : scalePx 29050#16 27300#16 30800#16 = 127#8 ∧ scalePx 30799#16 27300#16 30800#16 = 254#8 := by decide
theorem test_scale_edges : scalePx 30800#16 27300#16 30800#16 = 255#8 ∧ scalePx 27300#16 27300#16 30800#16 = 0#8 := by decide
theorem test_scale_inverted : scalePx 150#16 200#16 100#16 = 0#8 ∧ scalePx 300#16 200#16 100#16 = 255#8 := by decide
theorem test_palette_offsets : palOffset 99#8 0 = 297 ∧ palOffset 255#8 2 = 767 := by decide

/-! ### Script text (R107, R108) -/

theorem test_text_write : ScriptText.readLine ("WR RANGE_MIN, 27300 ; P1".toList) = some [.wr .rangeMin 27300#32] := by decide
theorem test_text_rawaddr : ScriptText.readLine ("RH RAWADDR(1,88)".toList) = some [.rh 0x201F0#19] := by decide
theorem test_text_write_address : ScriptText.readLine ("WR RANGE_MIN, RAWADDR(29,159)".toList) = some [.wr .rangeMin 0x2257E#32] := by
  decide
theorem test_text_recv : ScriptText.readLine ("RECV 2, 0x2670".toList) = some [.command (.recv 2 9840)] := by decide
theorem test_text_rejected : ScriptText.readLine ("JMP 3".toList) = none := by decide

/-! ### Memories and states for the witnesses -/

/-- A shelf in which packet 59 of slot 3 has no zero word. -/
def fullPacket : Memory := loop (fun p m => m.setShelfByte 3 (2 * (82 * 59 + p) + 1) 1#8) 82 []

/-- A shelf in which word 81 of packet 59 of slot 3 is zero. -/
def lastWordZero : Memory := (Memory.setShelfByte [] 3 (2 * (82 * 59 + 81)) 0#8).setShelfByte 3 (2 * (82 * 59 + 81) + 1) 0#8

/-- A RAW grid of zeros. -/
def zeroRaw : Memory := forCells (fun r c m => m.setRawCell r c 0#16) []

/-- A complete cycle in the steady state, with this shelf and this RAW grid. -/
def ready (shelf raw : Memory) : State :=
  { State.reset with segv := 0b1111#4, prime := false, shelf := shelf, raw := raw }

theorem ready_shelf (m n : Memory) : (ready m n).shelf = m := rfl

theorem fullPacket_low {p : Nat} (hp : p < 82) : fullPacket.shelfByte 3 (2 * (82 * 59 + p) + 1) = 1#8 := by
  have key := loop_induct (body := fun p m => Memory.setShelfByte m 3 (2 * (82 * 59 + p) + 1) 1#8) (n := 82) (x := [])
    (fun n m => ∀ q, q < n → m.shelfByte 3 (2 * (82 * 59 + q) + 1) = 1#8) (by omega) (by
      intro k m hk h q hq
      rw [Memory.shelfByte_setShelfByte _ _ _ _ _ _ (by omega) (by omega)]
      split
      · rfl
      · exact h q (by omega))
  exact key p hp

theorem fullPacket_word {p : Nat} (hp : p < 82) : fullPacket.sampleWord 3 (82 * 59 + p) ≠ 0#16 := by
  intro h
  have := congrArg BitVec.toNat h
  rw [Memory.sampleWord, fullPacket_low hp, toNat_append_bytes] at this
  simp at this

theorem lastWordZero_word : lastWordZero.sampleWord 3 (82 * 59 + 81) = 0#16 := by
  simp [lastWordZero, Memory.sampleWord, Memory.shelfByte_setShelfByte]

theorem zeroRaw_cell {r c : Nat} (hr : r < 120) (hc : c < 160) : zeroRaw.rawCell r c = 0#16 :=
  forCells_sets Memory.rawCell (fun _ _ => 0#16) (fun _ _ _ _ _ => Memory.rawCell_setRawCell_same _ _ _ _)
    (fun _ _ _ _ _ _ hc hc' h => Memory.rawCell_setRawCell_other _ _ hc hc' h) hr hc

theorem zeroRaw_track : zeroRaw.track = ⟨0xFFFF#16, 0x0000#16⟩ := by
  rcases zeroRaw.track_found.attained with h | ⟨⟨r, c, h, -⟩, -⟩
  · exact h.1
  · exact absurd (zeroRaw_cell h.1 h.2.1) h.2.2

/-! ### Witnesses of the hypotheses of the statements -/

theorem test_witness_DecodeOfEncodeIsTheCommand :
    (Instr.recv 3 65535).WellFormed ∧ (Instr.recv 0 0).WellFormed ∧ Instr.frame.WellFormed := by decide

theorem test_witness_EncodeOfDecodeIsTheWord :
    decode 0x00FFFF32#32 = .ok (.recv 3 65535) ∧ decode 0x00000002#32 = .ok (.recv 0 0) := ⟨rfl, rfl⟩

theorem test_witness_IllegalWordsAreExactlyTheReservedOnes :
    decode 0x00000007#32 = .error .reservedOp ∧ decode 0x00000042#32 = .error .recvReservedBits ∧
    decode 0x01000002#32 = .error .recvReservedBits ∧ decode 0x00000010#32 = .error .strayBits ∧
    (hostDoes [cmd 0x00000007#32]).script = .write 0#19 (.b32 0x00000007#32) :: [] ∧ 3 < 4 ∧ 65535 < 65536 :=
  ⟨rfl, rfl, rfl, rfl, rfl, by decide, by decide⟩

theorem test_witness_StepRunsTheDecodedCommand :
    (hostDoes [cmd 0x00000001#32]).script = .write 0#19 (.b32 0x00000001#32) :: [] ∧ decode 0x00000001#32 = .ok .srst ∧
    exec .srst { hostDoes [cmd 0x00000001#32] with script := [] } = .next State.reset ∧
    exec .srst State.reset = .next State.reset := ⟨rfl, rfl, rfl, rfl⟩

theorem test_witness_IdleCoreNeverActs : State.reset.script = [] := rfl

theorem test_witness_EachBusOperationIsAnsweredOnce :
    (hostDoes [.hreset]).script = .hreset :: [] ∧
    (hostDoes [.read 0x7FFFF#19 .byte]).script = .read 0x7FFFF#19 .byte :: [] ∧
    HostOp.read 0x7FFFF#19 .byte ≠ .hreset := by decide

theorem test_witness_ResetValues : (hostDoes [.hreset]).script = .hreset :: [] := rfl

/-- A state with every register at the edge of the invariant, and a step from it. -/
theorem test_witness_EveryStepKeepsTheInvariant :
    let s := { hostDoes [cmd 0x00000001#32] with
      dropFrame := 240#16, rawv := true, intv := true, colv := true, palsel := Config.lastPalette,
      shelf := Memory.setShelfByte [] 3 9839 7#8 }
    s.Inv ∧ step s = .next { s with prime := true, segv := 0#4, script := [], responses := [.ok] } := by
  refine ⟨⟨⟨?_, Memory.sound_nil _, Memory.sound_nil _, Memory.sound_nil _⟩, ?_⟩, rfl⟩
  · exact Memory.sound_write (Memory.sound_nil _) (shelfHolds_shelfAddr (by decide) (by decide)) _
  · exact ⟨by decide, Nat.lt_succ_self _, fun _ => rfl, fun _ => rfl, rfl⟩

theorem test_witness_ReadsChangeNothing :
    (hostDoes [.read 0x00000#19 .byte]).script = .read 0x00000#19 .byte :: [] := rfl

theorem test_witness_ReadsErrExactlyOffTheMap :
    (hostDoes [.read 0x29600#19 .half]).script = .read 0x29600#19 .half :: [] ∧
    (hostDoes [.read 0x295FE#19 .half]).script = .read 0x295FE#19 .half :: [] := ⟨rfl, rfl⟩

theorem test_witness_WritesErrExactlyOffTheWritableMap :
    (hostDoes [.write 0x12670#19 (.b8 1#8)]).script = .write 0x12670#19 (.b8 1#8) :: [] ∧
    (hostDoes [.write 0x1266F#19 (.b8 1#8)]).script = .write 0x1266F#19 (.b8 1#8) :: [] := ⟨rfl, rfl⟩

/-- The last cell of each window. -/
theorem test_witness_WindowReadsGiveTheirCells :
    (hostDoes [.read 0x295FE#19 .half]).script = .read (BitVec.ofNat 19 (0x20000 + 2 * (160 * 119 + 159))) .half :: [] ∧
    (hostDoes [.read 0x34AFF#19 .byte]).script = .read (BitVec.ofNat 19 (0x30000 + 160 * 119 + 159)) .byte :: [] ∧
    (hostDoes [.read 0x4E0FF#19 .byte]).script = .read (BitVec.ofNat 19 (0x40000 + 3 * (160 * 119 + 159) + 2)) .byte :: [] ∧
    (hostDoes [.read 0x502FF#19 .byte]).script = .read (BitVec.ofNat 19 (0x50000 + 767)) .byte :: [] ∧
    119 < 120 ∧ 159 < 160 ∧ 2 < 3 ∧ 767 < 768 := by decide

/-- The last byte of slot 3. -/
theorem test_witness_ShelfWindowStoresAndReadsBytes :
    (hostDoes [.write 0x1E66F#19 (.b8 7#8)]).script =
      .write (BitVec.ofNat 19 (0x10000 + 0x4000 * 3 + 9839)) (.b8 7#8) :: [] ∧
    (hostDoes [.read 0x1E66F#19 .byte]).script = .read (BitVec.ofNat 19 (0x10000 + 0x4000 * 3 + 9839)) .byte :: [] ∧
    3 < 4 ∧ 9839 < 9840 ∧ 0x1E66E ≠ 0x10000 + 0x4000 * 3 + 9839 := by decide

/-- A byte written twice, and written once. -/
theorem test_witness_CanonicalMemoriesAreDeterminedByTheirReads :
    let m : Memory := Memory.write [] 0x10000 5#8
    let n : Memory := (Memory.write [] 0x10000 7#8).write 0x10000 5#8
    m.wf ∧ n.wf ∧ ∀ a, m.read a = n.read a := by
  refine ⟨Memory.wf_write Memory.wf_nil _ _, Memory.wf_write (Memory.wf_write Memory.wf_nil _ _) _ _, fun a => ?_⟩
  simp only [Memory.read_write]
  split <;> rfl

theorem test_witness_CsrReadValues :
    (hostDoes [.read 0x00000#19 .word]).script = .read (BitVec.ofNat 19 Csr.cmd.offset) .word :: [] ∧
    (hostDoes [.read 0x0003C#19 .word]).script = .read (BitVec.ofNat 19 Csr.reserved3C.offset) .word :: [] := by decide

theorem test_witness_StatusReadsItsFields :
    (hostDoes [.read 0x00004#19 .word]).script = .read 0x00004#19 .word :: [] ∧ 3 < 4 ∧ 15 ≤ 15 := by decide

theorem test_witness_StatusWriteClearsSelectedFlags :
    (hostDoes [.write 0x00004#19 (.b32 0x00007F00#32)]).script = .write 0x00004#19 (.b32 0x00007F00#32) :: [] := rfl

theorem test_witness_ConfigurationWritesTakeTheirFieldsOnly :
    (hostDoes [.write 0x00008#19 (.b32 0xFFFFFFFF#32)]).script = .write 0x00008#19 (.b32 0xFFFFFFFF#32) :: [] ∧
    (hostDoes [.write 0x0000C#19 (.b32 0xFFFFFFFF#32)]).script = .write 0x0000C#19 (.b32 0xFFFFFFFF#32) :: [] ∧
    (hostDoes [.write 0x00010#19 (.b32 0xFFFFFFFF#32)]).script = .write 0x00010#19 (.b32 0xFFFFFFFF#32) :: [] ∧
    (hostDoes [.write 0x00014#19 (.b32 0x00000100#32)]).script = .write 0x00014#19 (.b32 0x00000100#32) :: [] :=
  ⟨rfl, rfl, rfl, rfl⟩

theorem test_witness_ReadOnlyCsrWritesChangeNothing :
    (hostDoes [.write 0x00018#19 (.b32 5#32)]).script = .write (BitVec.ofNat 19 0x18) (.b32 5#32) :: [] ∧
    (hostDoes [.write 0x0003C#19 (.b32 5#32)]).script = .write (BitVec.ofNat 19 0x3C) (.b32 5#32) :: [] ∧
    0x18 ≤ 0x18 ∧ 0x3C ≤ 0x3C ∧ 0x18 % 4 = 0 ∧ 0x3C % 4 = 0 := by decide

/-- Both ways a flag falls. -/
theorem test_witness_StickyFlagsFallOnlyByClearOrReset :
    let s := { hostDoes [.write 0x00004#19 (.b32 0x00000200#32)] with degen := true }
    let u := { hostDoes [.hreset] with cfgerr := true }
    (step s = .next { State.reset with responses := [.ok] } ∧ s.flag .degen = true) ∧
    (step u = .next State.reset ∧ u.flag .cfgerr = true) ∧
    State.flag { State.reset with responses := [.ok] } .degen = false ∧ State.reset.flag .cfgerr = false :=
  ⟨⟨rfl, rfl⟩, ⟨rfl, rfl⟩, rfl, rfl⟩

theorem test_witness_RefusedCommandsSetOnlySeqerr :
    State.reset.segv ≠ 0b1111#4 ∧ State.reset.rawv = false ∧ State.reset.intv = false ∧
    State.segv { State.reset with segv := 0b0111#4 } ≠ 0b1111#4 := by decide

theorem test_witness_RecvCommitsItsSlot :
    (Instr.recv 3 9840).WellFormed ∧ (Instr.recv 0 9841).WellFormed ∧ (Instr.recv 3 65535).WellFormed ∧ 3 < 4 := by decide

theorem test_witness_PrimingCycleIsConsumed :
    State.segv { State.reset with segv := 0b1111#4 } = 0b1111#4 ∧
    State.prime { State.reset with segv := 0b1111#4 } = true := by decide

/-- The last sample of the frame placed; the last sample cut off by a zero; the addresses beside the RAW window. -/
theorem test_witness_DeliveredAssemblyPlacesItsSamples :
    ((ready fullPacket []).segv = 0b1111#4 ∧ (ready fullPacket []).prime = false) ∧
    (∀ q, 2 ≤ q → q ≤ 81 → (ready fullPacket []).shelf.sampleWord 3 (82 * 59 + q) ≠ 0#16) ∧
    (∃ q, 2 ≤ q ∧ q ≤ 81 ∧ (ready lastWordZero []).shelf.sampleWord 3 (82 * 59 + q) = 0#16) ∧
    3 < 4 ∧ 59 < 60 ∧ 2 ≤ 81 ∧ 81 < 82 ∧ rawHolds 0x1FFFF = false ∧ rawHolds 0x29600 = false :=
  ⟨⟨rfl, rfl⟩, fun q _ hq => by rw [ready_shelf]; exact fullPacket_word (by omega),
    ⟨81, by decide, by decide, by rw [ready_shelf]; exact lastWordZero_word⟩, by decide, by decide, by decide, by decide, by decide, by decide⟩

theorem test_witness_DeliveredAssemblyCountsTruncatedPackets :
    (ready lastWordZero []).segv = 0b1111#4 ∧ (ready lastWordZero []).prime = false := ⟨rfl, rfl⟩

theorem test_witness_PlacementIsABijectionOntoTheFrame :
    (3 < 4 ∧ 59 < 60 ∧ 2 ≤ 81 ∧ 81 < 82) ∧ (0 < 4 ∧ 0 < 60 ∧ 2 ≤ 2 ∧ 2 < 82) ∧ 119 < 120 ∧ 159 < 160 := by decide

/-- The last header byte of slot 3 differs. -/
theorem test_witness_HeaderBytesNeverMatter :
    ∀ slot j k, slot < 4 → j < 60 → 4 ≤ k → k < 164 →
      (Memory.setShelfByte [] 3 (164 * 59 + 3) 1#8).shelfByte slot (164 * j + k) =
        State.reset.shelf.shelfByte slot (164 * j + k) := by
  intro slot j k _ hj hk hk'
  rw [Memory.shelfByte_setShelfByte _ _ _ _ _ _ (by omega) (by omega), if_neg (by omega)]
  rfl

theorem test_witness_PutStoresASampleWord : 3 < 4 ∧ 4919 < 4920 := by decide

theorem test_witness_ScaleComputesEveryIntensity :
    State.rawv { State.reset with rawv := true } = true ∧ 119 < 120 ∧ 159 < 160 ∧
    intHolds 0x2FFFF = false ∧ intHolds 0x34B00 = false := by decide

/-- One cell that is not zero; and no such cell. -/
theorem test_witness_TrackerFindsLeastAndGreatestNonZeroCell :
    (∃ r c, r < 120 ∧ c < 160 ∧ (Memory.setRawCell [] 119 159 1#16).rawCell r c ≠ 0#16) ∧
    ∀ r c, r < 120 → c < 160 → zeroRaw.rawCell r c = 0#16 :=
  ⟨⟨119, 159, by decide, by decide, by simp⟩, fun _ _ hr hc => zeroRaw_cell hr hc⟩

/-- The edges of each clause, and a zero cell in the last place. -/
theorem test_witness_ScalingIsMonotoneClampedAndTotal :
    ((0x0000#16 : Half) ≠ 0xFFFF#16 ∧ (0x0000#16 : Half) ≤ 0xFFFF#16) ∧ ((27300#16 : Half) < 27301#16) ∧
    ((27300#16 : Half) ≤ 27300#16 ∧ (27301#16 : Half) < 27302#16) ∧
    (State.rawv { State.reset with rawv := true, rangeMin := 5#16, rangeMax := 5#16 } = true ∧
      State.upperBound { State.reset with rawv := true, rangeMin := 5#16, rangeMax := 5#16 } =
        State.lowerBound { State.reset with rawv := true, rangeMin := 5#16, rangeMax := 5#16 }) ∧
    (State.rawv { State.reset with rawv := true, raw := zeroRaw } = true ∧ zeroRaw.rawCell 119 159 = 0#16) :=
  ⟨by decide, by decide, by decide, ⟨rfl, rfl⟩, rfl, zeroRaw_cell (by decide) (by decide)⟩

/-- Configured bounds the wrong way round; and both bounds tracked on a grid of zeros. -/
theorem test_witness_InvertedRangeIsAThreshold :
    (State.rawv { State.reset with rawv := true, rangeMin := 200#16, rangeMax := 199#16 } = true ∧
      State.upperBound { State.reset with rawv := true, rangeMin := 200#16, rangeMax := 199#16 } <
        State.lowerBound { State.reset with rawv := true, rangeMin := 200#16, rangeMax := 199#16 }) ∧
    let s := { State.reset with rawv := true, autoMin := true, autoMax := true, raw := zeroRaw }
    s.rawv = true ∧ s.upperBound < s.lowerBound ∧ s.autoMin = true ∧ s.autoMax = true ∧ 119 < 120 ∧ 159 < 160 := by
  refine ⟨⟨rfl, by simp [State.upperBound, State.lowerBound, State.reset]⟩, rfl, ?_, rfl, rfl, by decide, by decide⟩
  simp [State.upperBound, State.lowerBound, zeroRaw_track]

theorem test_witness_MapLooksUpEveryPixel :
    State.intv { State.reset with intv := true } = true ∧ 119 < 120 ∧ 159 < 160 ∧ 2 < 3 ∧
    colHolds 0x3FFFF = false ∧ colHolds 0x4E100 = false := by decide

theorem test_witness_FrameIsAssembleScaleMap :
    ((ready [] []).segv = 0b1111#4 ∧ (ready [] []).prime = false) ∧
    (State.segv { State.reset with segv := 0b1111#4 } = 0b1111#4 ∧
      State.prime { State.reset with segv := 0b1111#4 } = true) ∧
    State.segv { State.reset with segv := 0b1110#4 } ≠ 0b1111#4 := by decide

theorem test_witness_CommandsKeepShelfConfigurationAndFlags :
    State.flag { State.reset with degen := true } .degen = true := rfl

/-- A step of a CMD write, for the three commands below. -/
theorem step_asm (s : State) :
    step { s with script := [cmd 0x00000003#32] } = thenRespond .ok (execAsm { s with script := [] }) := by
  rw [step_cons rfl]
  exact busWrite_csr { s with script := [] } .cmd 0x00000003#32

theorem step_scale (s : State) :
    step { s with script := [cmd 0x00000004#32] } = thenRespond .ok (execScale { s with script := [] }) := by
  rw [step_cons rfl]
  exact busWrite_csr { s with script := [] } .cmd 0x00000004#32

theorem step_map (s : State) :
    step { s with script := [cmd 0x00000005#32] } = thenRespond .ok (execMap { s with script := [] }) := by
  rw [step_cons rfl]
  exact busWrite_csr { s with script := [] } .cmd 0x00000005#32

/-- A degenerate range, and an INT cell that is not 0. -/
def scalable : State :=
  { State.reset with rawv := true, rangeMin := 5#16, rangeMax := 5#16, int := Memory.setIntCell [] 119 159 1#8 }

/-- A colour that is not the one its intensity has. -/
def mappable : State :=
  { State.reset with
    intv := true
    int := Memory.setIntCell [] 119 159 255#8
    col := Memory.setColByte [] 119 159 2 (Config.palRom 0#8 767 + 1#8) }

theorem fullPacket_placed (raw : Memory) : ((assemble fullPacket raw).raw.rawCell 119 159).toNat % 256 = 1 := by
  rw [assemble_rawCell _ _ (by decide) (by decide), if_pos]
  · rw [show sourceSegment 119 = 3 by decide,
      show sampleIndex (sourcePacket 119 159) (sourceWord 159) = 82 * 59 + 81 by decide, Memory.sampleWord, fullPacket_low (by decide), toNat_append_bytes]
    simp only [BitVec.toNat_ofNat]
    omega
  · rw [Memory.decodePacket_writes _ _ _ (by decide) (by decide)]
    intro p _ hp
    rw [show sourceSegment 119 = 3 by decide,
      show sampleIndex (sourcePacket 119 159) p = 82 * 59 + p by simp [sampleIndex, sourcePacket]]
    exact fullPacket_word (by unfold sourceWord at hp; omega)

/-- A delivered frame counts; a hard reset clears a count. -/
theorem test_witness_CountersChangeOnlyOnDelivery :
    (∃ t, step { ready [] [] with script := [cmd 0x00000003#32] } = .next t ∧ t.frames ≠ (ready [] []).frames) ∧
    step { hostDoes [.hreset] with frames := 5#32, dropFrame := 1#16, dropTotal := 1#32 } = .next State.reset ∧
    State.reset.frames ≠ 5#32 := by
  refine ⟨⟨_, (step_asm _).trans (congrArg _ (execAsm_deliver rfl rfl)), ?_⟩, rfl, by decide⟩
  simp [ready, State.reset]

theorem replaced (s : State) (hs : s.segv = 0b1111#4) (hp : s.prime = false) (hf : s.shelf = fullPacket)
    (h2 : s.raw.rawCell 119 159 = 2#16) :
    ∃ t, step { s with script := [cmd 0x00000003#32] } = .next t ∧ t.raw.rawCell 119 159 ≠ s.raw.rawCell 119 159 := by
  refine ⟨_, (step_asm s).trans (congrArg _ (execAsm_deliver (s := { s with script := [] }) hs hp)), ?_⟩
  have h1 := fullPacket_placed s.raw
  rw [← hf] at h1
  rw [State.respond_raw, State.deliver_raw, h2]
  intro h
  have h3 : (assemble s.shelf s.raw).raw.rawCell 119 159 = 2#16 := h
  rw [h3] at h1
  exact absurd h1 (by decide)

/-- The last cell of the frame, 2 before, is given the sample of the last word. -/
theorem test_witness_RawCellsAreNeverClearedToZero :
    119 < 120 ∧ 159 < 160 ∧ ∃ t, step { ready fullPacket (Memory.setRawCell [] 119 159 2#16) with
        script := [cmd 0x00000003#32] } = .next t ∧
      t.raw.rawCell 119 159 ≠ (Memory.setRawCell [] 119 159 2#16).rawCell 119 159 :=
  ⟨by decide, by decide, replaced _ rfl rfl (ready_shelf _ _) (Memory.rawCell_setRawCell_same _ _ _ _)⟩

/-- SCALE changes an INT cell; MAP changes a COL byte. The RAW clause has the witness above. -/
theorem test_witness_GridsAreWrittenOnlyByTheirCommands :
    (∃ t, step { scalable with script := [cmd 0x00000004#32] } = .next t ∧ t.int ≠ scalable.int) ∧
    ∃ t, step { mappable with script := [cmd 0x00000005#32] } = .next t ∧ t.col ≠ mappable.col := by
  constructor
  · refine ⟨_, (step_scale _).trans (congrArg _ (execScale_executed rfl)), ?_⟩
    intro h
    have h1 := congrArg (fun m : Memory => m.intCell 119 159) h
    rw [State.respond_int, State.scaleBody_int] at h1
    have he : State.upperBound { scalable with script := [] } = State.lowerBound { scalable with script := [] } := rfl
    have h2 : scalable.int.intCell 119 159 = 1#8 := by
      unfold scalable
      rw [Memory.intCell_setIntCell_same]
    rw [if_pos he] at h1
    simp only [zeroGrid_intCell _ (show 119 < 120 by decide) (show 159 < 160 by decide), h2] at h1
    exact absurd h1 (by decide)
  · refine ⟨_, (step_map _).trans (congrArg _ (execMap_executed rfl)), ?_⟩
    intro h
    rw [State.respond_col, State.mapBody_col] at h
    have h1 := mapGrid_colByte 0#8 mappable.int mappable.col (show 119 < 120 by decide) (show 159 < 160 by decide)
      (show 2 < 3 by decide)
    have h2 : mappable.col.colByte 119 159 2 = Config.palRom 0#8 767 + 1#8 := by
      unfold mappable
      rw [Memory.colByte_setColByte _ _ _ _ _ _ _ _ (by decide) (by decide) (by decide) (by decide), if_pos ⟨rfl, rfl, rfl⟩]
    have h3 : mappable.int.intCell 119 159 = 255#8 := by
      unfold mappable
      rw [Memory.intCell_setIntCell_same]
    have h6 : mapGrid 0#8 mappable.int mappable.col = mappable.col := h
    rw [h6, h2, h3, mapPx, (palOffset_eq _ (show 2 < 3 by decide)).1] at h1
    rw [show 3 * (255#8).toNat + 2 = 767 by decide] at h1
    have h4 := congrArg BitVec.toNat h1
    have h5 := (Config.palRom 0#8 767).isLt
    rw [BitVec.toNat_add] at h4
    simp only [BitVec.toNat_ofNat] at h4
    omega

end Sys2Proof.Tests
end

section
/-! The host's side of the step (spec/00_scope.md). -/

namespace Sys2Proof.Machine

/-- Settles O6: the model's law of the step with an empty script (R8). -/
theorem idleCoreNeverActs : Obligations.IdleCoreNeverActs := by
  intro s hidle
  exact step_nil hidle

end Sys2Proof.Machine
end

section
/-! What a step can do (spec/40_bus_and_control.md R120 to R132), said once: one case for each branch a command, a CSR write
or a host operation can take, with the state it leaves. Every rule over all steps goes through these cases. -/

namespace Sys2Proof.Machine

/-! ### A command -/

/-- The precondition of a command does not hold (R128). -/
def State.Refuses (s : State) : Instr → Prop
  | .asm | .frame => s.segv ≠ 0b1111#4
  | .scale => s.rawv = false
  | .map => s.intv = false
  | .nop | .srst | .recv _ _ => False

/-- The branches of the commands: what running `i` on `s` can leave. -/
inductive Executes (s : State) : Instr → State → Prop
  | nop : Executes s .nop s
  | srst : Executes s .srst { s.clearSegv with prime := true }
  | commit (seg : Nat) : Executes s (.recv seg 9840) (s.setSegv seg true)
  | uncommit (seg : Nat) {len : Nat} (hlen : len ≠ 9840) :
      Executes s (.recv seg len) ((s.setSegv seg false).raise .lenerr)
  | refuse {i : Instr} (h : s.Refuses i) : Executes s i s.refuseCommand
  | priming {i : Instr} (hi : i = .asm ∨ i = .frame) (hsegv : s.segv = 0b1111#4) (hprime : s.prime = true) :
      Executes s i s.priming
  | deliver (hsegv : s.segv = 0b1111#4) (hprime : s.prime = false) : Executes s .asm s.deliver
  | scale (hrawv : s.rawv = true) : Executes s .scale s.scaleBody
  | map (hintv : s.intv = true) : Executes s .map s.mapBody
  | frame (hsegv : s.segv = 0b1111#4) (hprime : s.prime = false) : Executes s .frame s.deliver.scaleBody.mapBody

/-- Every command on every state answers a next state, by one of the branches. -/
theorem exec_executes (i : Instr) (s : State) : ∃ t, exec i s = .next t ∧ Executes s i t := by
  cases i with
  | nop => exact ⟨_, rfl, .nop⟩
  | srst => exact ⟨_, rfl, .srst⟩
  | recv seg len =>
    by_cases hlen : len = 9840
    · subst hlen
      exact ⟨_, rfl, .commit seg⟩
    · exact ⟨_, if_neg hlen, .uncommit seg hlen⟩
  | asm =>
    by_cases hsegv : s.segv = 0b1111#4
    · cases hprime : s.prime with
      | true => exact ⟨_, execAsm_priming hsegv hprime, .priming (.inl rfl) hsegv hprime⟩
      | false => exact ⟨_, execAsm_deliver hsegv hprime, .deliver hsegv hprime⟩
    · exact ⟨_, execAsm_refused hsegv, .refuse hsegv⟩
  | scale =>
    cases hrawv : s.rawv with
    | true => exact ⟨_, execScale_executed hrawv, .scale hrawv⟩
    | false => exact ⟨_, execScale_refused hrawv, .refuse hrawv⟩
  | map =>
    cases hintv : s.intv with
    | true => exact ⟨_, execMap_executed hintv, .map hintv⟩
    | false => exact ⟨_, execMap_refused hintv, .refuse hintv⟩
  | frame =>
    by_cases hsegv : s.segv = 0b1111#4
    · cases hprime : s.prime with
      | true => exact ⟨_, execFrame_priming hsegv hprime, .priming (.inr rfl) hsegv hprime⟩
      | false => exact ⟨_, execFrame_deliver hsegv hprime, .frame hsegv hprime⟩
    · exact ⟨_, execFrame_refused hsegv, .refuse hsegv⟩

/-! ### A CSR write -/

/-- The branches of a write of `v` to a CSR (R123). -/
inductive WritesCsr (s : State) (v : Word) : Csr → State → Prop
  | command {i : Instr} {t : State} (hdec : decode v = .ok i) (h : Executes s i t) : WritesCsr s v .cmd t
  | illegal {e : Illegal} (hdec : decode v = .error e) : WritesCsr s v .cmd (s.raise .illcmd)
  | clearFlags : WritesCsr s v .status (s.clearFlags v)
  | rangeMin : WritesCsr s v .rangeMin { s with rangeMin := v.extractLsb' 0 16 }
  | rangeMax : WritesCsr s v .rangeMax { s with rangeMax := v.extractLsb' 0 16 }
  | mode : WritesCsr s v .mode { s with autoMin := v.getLsbD 0, autoMax := v.getLsbD 1 }
  | palette (hpal : (v.extractLsb' 0 8).toNat < Config.nPalettes) :
      WritesCsr s v .palsel { s with palsel := v.extractLsb' 0 8 }
  | illegalPalette (hpal : ¬(v.extractLsb' 0 8).toNat < Config.nPalettes) : WritesCsr s v .palsel (s.raise .cfgerr)
  | readOnly {r : Csr} (hr : r ∉ [.cmd, .status, .rangeMin, .rangeMax, .mode, .palsel]) : WritesCsr s v r s

/-- Every CSR write on every state answers a next state, by one of the branches. -/
theorem writeCsr_writesCsr (s : State) (v : Word) (r : Csr) : ∃ t, s.writeCsr v r = .next t ∧ WritesCsr s v r t := by
  cases r with
  | cmd =>
    cases hdec : decode v with
    | ok i =>
      obtain ⟨t, hexec, h⟩ := exec_executes i s
      exact ⟨t, by simp [State.writeCsr, runCommand, hdec, hexec], .command hdec h⟩
    | error e => exact ⟨_, by simp [State.writeCsr, runCommand, hdec], .illegal hdec⟩
  | status => exact ⟨_, rfl, .clearFlags⟩
  | rangeMin => exact ⟨_, rfl, .rangeMin⟩
  | rangeMax => exact ⟨_, rfl, .rangeMax⟩
  | mode => exact ⟨_, rfl, .mode⟩
  | palsel =>
    by_cases hpal : (v.extractLsb' 0 8).toNat < Config.nPalettes
    · exact ⟨_, congrArg _ (if_pos hpal), .palette hpal⟩
    · exact ⟨_, congrArg _ (if_neg hpal), .illegalPalette hpal⟩
  | _ => exact ⟨s, rfl, .readOnly (by decide)⟩

/-! ### A bus write -/

/-- An aligned address of the CSR window is the offset of its slot (R22, R67). -/
theorem Csr.offset_at : ∀ a < 64, a % 4 = 0 → (Csr.at a).offset = a := by decide

/-- The one row of the map with the CSR window, and the rows with the shelf window (R62). -/
theorem regions_csr : ∀ g ∈ regions, g.window = .csr → g.base = 0 ∧ g.size = 64 ∧ g.width = .word := by decide

theorem regions_shelf : ∀ g ∈ regions, g.window = .shelf →
    (∃ slot < 4, g.base = shelfAddr slot 0) ∧ g.size = 9840 ∧ g.width = .byte := by decide

theorem shelfSlotOf_shelfAddr {slot k : Nat} (hk : k < 9840) : shelfSlotOf (shelfAddr slot k) = slot := by
  unfold shelfSlotOf shelfAddr
  omega

theorem shelfByteOf_shelfAddr {slot k : Nat} (hk : k < 9840) : shelfByteOf (shelfAddr slot k) = k := by
  unfold shelfByteOf shelfAddr
  omega

theorem BusData.eq_b32_of_width {d : BusData} (h : d.width = .word) : ∃ v, d = .b32 v := by
  cases d with
  | b32 v => exact ⟨v, rfl⟩
  | _ => cases h

theorem BusData.eq_b8_of_width {d : BusData} (h : d.width = .byte) : ∃ b, d = .b8 b := by
  cases d with
  | b8 b => exact ⟨b, rfl⟩
  | _ => cases h

@[simp] theorem BusData.toWord_b8_extract (b : Byte) : (BusData.b8 b).toWord.extractLsb' 0 8 = b := by
  apply BitVec.eq_of_toNat_eq
  have := b.isLt
  simp only [BusData.toWord, BitVec.extractLsb'_toNat, BitVec.toNat_setWidth]
  omega

/-- A row of the CSR window takes only the word of a CSR slot. -/
theorem accepted_csr_window {addr : Addr} {d : BusData} {g : Region} (h : accepted addr.toNat d.width = some g)
    (hg : g.window = .csr) : ∃ (r : Csr) (v : Word), addr = r.addr ∧ d = .b32 v := by
  obtain ⟨hmem, hholds, hwidth, halign⟩ := accepted_iff.mp h
  obtain ⟨hbase, hsize, hword⟩ := regions_csr g hmem hg
  obtain ⟨v, rfl⟩ := BusData.eq_b32_of_width (hwidth ▸ hword)
  rw [Region.holds_iff, hbase, hsize] at hholds
  refine ⟨Csr.at addr.toNat, v, BitVec.eq_of_toNat_eq ?_, rfl⟩
  rw [Csr.addr_toNat, Csr.offset_at _ (by omega) halign]

/-- A row of the shelf window takes only a byte of a shelf slot. -/
theorem accepted_shelf_window {a : Nat} {d : BusData} {g : Region} (h : accepted a d.width = some g)
    (hg : g.window = .shelf) : ∃ slot k b, slot < 4 ∧ k < 9840 ∧ a = shelfAddr slot k ∧ d = .b8 b := by
  obtain ⟨hmem, hholds, hwidth, -⟩ := accepted_iff.mp h
  obtain ⟨⟨slot, hslot, hbase⟩, hsize, hbyte⟩ := regions_shelf g hmem hg
  obtain ⟨b, rfl⟩ := BusData.eq_b8_of_width (hwidth ▸ hbyte)
  rw [Region.holds_iff, hbase, hsize] at hholds
  unfold shelfAddr at hholds
  exact ⟨slot, a - shelfAddr slot 0, b, hslot, by unfold shelfAddr; omega, by unfold shelfAddr; omega, rfl⟩

/-- The branches of a bus write (R121): rejected, a CSR write, or one shelf byte. -/
inductive WritesBus (s : State) : Addr → BusData → State → Prop
  | reject {addr : Addr} {d : BusData} : WritesBus s addr d (s.respond .err)
  | csr {r : Csr} {v : Word} {t : State} (h : WritesCsr s v r t) : WritesBus s r.addr (.b32 v) (t.respond .ok)
  | shelf {addr : Addr} {slot k : Nat} {b : Byte} (hslot : slot < 4) (hk : k < 9840)
      (haddr : addr.toNat = shelfAddr slot k) :
      WritesBus s addr (.b8 b) ({ s with shelf := s.shelf.setShelfByte slot k b }.respond .ok)

/-- Every bus write on every state answers a next state, by one of the branches. -/
theorem busWrite_writesBus (s : State) (addr : Addr) (d : BusData) :
    ∃ t, busWrite s addr d = .next t ∧ WritesBus s addr d t := by
  cases hacc : accepted addr.toNat d.width with
  | none => exact ⟨_, by simp [busWrite, hacc], .reject⟩
  | some g =>
    cases hg : g.window with
    | csr =>
      obtain ⟨r, v, rfl, rfl⟩ := accepted_csr_window hacc hg
      obtain ⟨t, hwrite, h⟩ := writeCsr_writesCsr s v r
      exact ⟨_, by rw [busWrite_csr, hwrite, thenRespond_next], .csr h⟩
    | shelf =>
      obtain ⟨slot, k, b, hslot, hk, haddr, rfl⟩ := accepted_shelf_window hacc hg
      refine ⟨_, ?_, .shelf hslot hk haddr⟩
      rw [haddr] at hacc
      simp [busWrite, hacc, hg, haddr, shelfSlotOf_shelfAddr hk, shelfByteOf_shelfAddr hk]
    | _ => exact ⟨_, by simp [busWrite, hacc, hg], .reject⟩

/-! ### A step -/

/-- The cases of a step (R132): nothing to do, a read, a write, or a hard reset. -/
inductive Steps (s : State) : State → Prop
  | idle (h : s.script = []) : Steps s s
  | read {addr : Addr} {w : Width} {rest : List HostOp} (h : s.script = .read addr w :: rest) :
      Steps s ({ s with script := rest }.respond (busRead { s with script := rest } addr w))
  | write {addr : Addr} {d : BusData} {rest : List HostOp} {t : State} (h : s.script = .write addr d :: rest)
      (hw : WritesBus { s with script := rest } addr d t) : Steps s t
  | hreset {rest : List HostOp} (h : s.script = .hreset :: rest) : Steps s (State.hardReset { s with script := rest })

/-- Every state has a next state, by one of the cases. -/
theorem step_steps (s : State) : ∃ t, step s = .next t ∧ Steps s t := by
  cases hscript : s.script with
  | nil => exact ⟨s, step_nil hscript, .idle hscript⟩
  | cons op rest =>
    rw [step_cons hscript]
    cases op with
    | read addr w => exact ⟨_, rfl, .read hscript⟩
    | write addr d =>
      obtain ⟨t, hwrite, h⟩ := busWrite_writesBus { s with script := rest } addr d
      exact ⟨t, hwrite, .write hscript h⟩
    | hreset => exact ⟨_, rfl, .hreset hscript⟩

/-- What a step answered is one of the cases. -/
theorem Steps.of_step {s t : State} (h : step s = .next t) : Steps s t := by
  obtain ⟨u, hu, hsteps⟩ := step_steps s
  obtain rfl : u = t := by simpa [h] using hu.symm
  exact hsteps

end Sys2Proof.Machine
end

section
/-! The invariant of the machine (spec/10_state.md R51; log entry 3 for the memories): it holds at reset and every step keeps
it. One lemma for each thing an operation does to the state, then the cases of a step. -/

namespace Sys2Proof.Machine

/-- The invariant field by field, for the field lemmas of the state to work on. -/
theorem State.inv_iff (s : State) :
    s.Inv ↔ (s.shelf.sound shelfHolds ∧ s.raw.sound rawHolds ∧ s.int.sound intHolds ∧ s.col.sound colHolds) ∧
      s.dropFrame.toNat ≤ 240 ∧ s.palsel.toNat < Config.nPalettes ∧ (s.colv = true → s.intv = true) ∧
      (s.intv = true → s.rawv = true) ∧ s.palclamp = false :=
  ⟨fun ⟨⟨hshelf, hraw, hint, hcol⟩, ⟨hdrop, hpal, hcolv, hintv, hclamp⟩⟩ =>
      ⟨⟨hshelf, hraw, hint, hcol⟩, hdrop, hpal, hcolv, hintv, hclamp⟩,
    fun ⟨⟨hshelf, hraw, hint, hcol⟩, hdrop, hpal, hcolv, hintv, hclamp⟩ =>
      ⟨⟨hshelf, hraw, hint, hcol⟩, ⟨hdrop, hpal, hcolv, hintv, hclamp⟩⟩⟩

/-! ### What the operations keep -/

theorem State.Inv.withScript {s : State} (h : s.Inv) (script : List HostOp) : State.Inv { s with script := script } := by
  simpa [State.inv_iff] using h

theorem State.Inv.respond {s : State} (h : s.Inv) (r : Response) : (s.respond r).Inv := by
  simpa [State.inv_iff] using h

theorem State.Inv.raise {s : State} (h : s.Inv) {c : Condition} (hc : c ≠ .palclamp) : (s.raise c).Inv := by
  simpa [State.inv_iff, hc] using h

theorem State.Inv.setSegv {s : State} (h : s.Inv) (seg : Nat) (v : Bool) : (s.setSegv seg v).Inv := by
  simpa [State.inv_iff] using h

theorem State.Inv.clearFlags {s : State} (h : s.Inv) (v : Word) : (s.clearFlags v).Inv := by
  rw [State.inv_iff] at h ⊢
  obtain ⟨hmem, hdrop, hpal, hcolv, hintv, hclamp⟩ := h
  exact ⟨hmem, hdrop, hpal, hcolv, hintv, by simp [hclamp]⟩

theorem State.Inv.priming {s : State} (h : s.Inv) : s.priming.Inv := by
  simpa [State.inv_iff] using h

/-- The registers at reset meet R51: palette 0 exists (R6), and every other clause is about zeros. -/
theorem State.registerInv_reset : State.reset.RegisterInv :=
  ⟨by decide, Nat.succ_pos _, id, id, rfl⟩

/-- A hard reset gives the registers their reset values and keeps the memories. -/
theorem State.Inv.hardReset {s : State} (h : s.Inv) : s.hardReset.Inv := by
  obtain ⟨⟨hshelf, hraw, hint, hcol⟩, -⟩ := h
  obtain ⟨hdrop, hpal, hcolv, hintv, hclamp⟩ := State.registerInv_reset
  exact ⟨⟨hshelf, hraw, hint, hcol⟩, ⟨hdrop, hpal, hcolv, hintv, hclamp⟩⟩

/-- A shelf byte is written inside the window. -/
theorem State.Inv.setShelfByte {s : State} (h : s.Inv) {slot k : Nat} (hslot : slot < 4) (hk : k < 9840) (b : Byte) :
    State.Inv { s with shelf := s.shelf.setShelfByte slot k b } := by
  obtain ⟨⟨hshelf, hraw, hint, hcol⟩, ⟨hdrop, hpal, hcolv, hintv, hclamp⟩⟩ := h
  have hshelf' := Memory.sound_write hshelf (shelfHolds_shelfAddr hslot hk) b
  exact ⟨⟨hshelf', hraw, hint, hcol⟩, ⟨hdrop, hpal, hcolv, hintv, hclamp⟩⟩

/-- An assembly counts at most 240 truncated packets, marks RAW valid and the grids computed from it stale (R29, R149). -/
theorem State.Inv.deliver {s : State} (h : s.Inv) : s.deliver.Inv := by
  rw [State.inv_iff] at h ⊢
  obtain ⟨⟨hshelf, hraw, hint, hcol⟩, -, hpal, -, -, hclamp⟩ := h
  have hraw' : s.deliver.raw.sound rawHolds := by
    rw [State.deliver_raw]
    exact sound_assemble s.shelf hraw
  have hdrop : s.deliver.dropFrame.toNat ≤ 240 := by
    rw [State.deliver_dropFrame]
    exact (Nat.mod_le _ _).trans s.shelf.truncatedPackets_le
  exact ⟨⟨by simpa using hshelf, hraw', by simpa using hint, by simpa using hcol⟩, hdrop, by simpa using hpal,
    by simp, by simp, by simpa using hclamp⟩

/-- SCALE runs only on a valid RAW, and leaves INT valid and COL stale (R168). -/
theorem State.Inv.scaleBody {s : State} (h : s.Inv) (hrawv : s.rawv = true) : s.scaleBody.Inv := by
  rw [State.inv_iff] at h ⊢
  obtain ⟨⟨hshelf, hraw, hint, hcol⟩, hdrop, hpal, -, -, hclamp⟩ := h
  have hint' : s.scaleBody.int.sound intHolds := by
    rw [State.scaleBody_int]
    split
    · exact sound_zeroGrid hint
    · exact sound_scaleGrid _ _ _ hint
  exact ⟨⟨by simpa using hshelf, by simpa using hraw, hint', by simpa using hcol⟩, by simpa using hdrop,
    by simpa using hpal, by simp, by simp [hrawv], by simpa using hclamp⟩

/-- MAP runs only on a valid INT, and its clamp moves no offset (R180, R184). -/
theorem State.Inv.mapBody {s : State} (h : s.Inv) (hintv : s.intv = true) : s.mapBody.Inv := by
  rw [State.inv_iff] at h ⊢
  obtain ⟨⟨hshelf, hraw, hint, hcol⟩, hdrop, hpal, -, hrawv, hclamp⟩ := h
  have hcol' : s.mapBody.col.sound colHolds := by
    rw [State.mapBody_col]
    exact sound_mapGrid s.palsel s.int hcol
  exact ⟨⟨by simpa using hshelf, by simpa using hraw, by simpa using hint, hcol'⟩, by simpa using hdrop,
    by simpa using hpal, by simp [hintv], by simp [hrawv hintv], by simpa using hclamp⟩

/-! ### The cases of a step -/

theorem Executes.inv {s t : State} {i : Instr} (h : Executes s i t) (hinv : s.Inv) : t.Inv := by
  cases h with
  | nop => exact hinv
  | srst => simpa [State.inv_iff] using hinv
  | commit seg => exact hinv.setSegv seg true
  | uncommit seg => exact (hinv.setSegv seg false).raise (by decide)
  | refuse => exact hinv.raise (by decide)
  | priming => exact hinv.priming
  | deliver => exact hinv.deliver
  | scale hrawv => exact hinv.scaleBody hrawv
  | map hintv => exact hinv.mapBody hintv
  | frame => exact (hinv.deliver.scaleBody (by simp)).mapBody (by simp)

theorem WritesCsr.inv {s t : State} {v : Word} {r : Csr} (h : WritesCsr s v r t) (hinv : s.Inv) : t.Inv := by
  cases h with
  | command _ hexec => exact hexec.inv hinv
  | illegal => exact hinv.raise (by decide)
  | clearFlags => exact hinv.clearFlags v
  | rangeMin => simpa [State.inv_iff] using hinv
  | rangeMax => simpa [State.inv_iff] using hinv
  | mode => simpa [State.inv_iff] using hinv
  | palette hpal =>
    obtain ⟨hmem, hdrop, -, hflags⟩ := (State.inv_iff s).mp hinv
    exact (State.inv_iff _).mpr ⟨hmem, hdrop, hpal, hflags⟩
  | illegalPalette => exact hinv.raise (by decide)
  | readOnly => exact hinv

theorem WritesBus.inv {s t : State} {addr : Addr} {d : BusData} (h : WritesBus s addr d t) (hinv : s.Inv) : t.Inv := by
  cases h with
  | reject => exact hinv.respond .err
  | csr hcsr => exact (hcsr.inv hinv).respond .ok
  | shelf hslot hk => exact (hinv.setShelfByte hslot hk _).respond .ok

theorem Steps.inv {s t : State} (h : Steps s t) (hinv : s.Inv) : t.Inv := by
  cases h with
  | idle => exact hinv
  | read => exact (hinv.withScript _).respond _
  | write _ hw => exact hw.inv (hinv.withScript _)
  | hreset => exact (hinv.withScript _).hardReset

/-- Settles O11, by the cases of a step: each operation of each case keeps every clause. -/
theorem everyStepKeepsTheInvariant : Obligations.EveryStepKeepsTheInvariant := by
  intro s t hinv hstep
  exact (Steps.of_step hstep).inv hinv

/-- Settles O10: no memory byte is listed at reset, and the registers meet R51. -/
theorem resetMeetsTheInvariant : Obligations.ResetMeetsTheInvariant :=
  ⟨⟨Memory.sound_nil _, Memory.sound_nil _, Memory.sound_nil _, Memory.sound_nil _⟩, State.registerInv_reset⟩

end Sys2Proof.Machine
end

section
/-! The canonical form of a memory (spec/10_state.md R50; log entry 3): what it reads decides which entries it lists. -/

namespace Sys2Proof.Machine

/-- An entry of a list with rising addresses is what its address reads as. -/
theorem Memory.read_of_mem {m : Memory} (h : m.Pairwise fun c d => c.1 < d.1) {c : Host.Cell} (hc : c ∈ m) :
    m.read c.1 = c.2 := by
  induction m with
  | nil => cases hc
  | cons d m ih =>
    obtain ⟨k, b⟩ := d
    obtain ⟨hk, hm⟩ := List.pairwise_cons.mp h
    rcases List.mem_cons.mp hc with rfl | hc
    · exact if_pos rfl
    · have hlt : k < c.1 := hk c hc
      rw [Memory.read_cons, if_neg hlt.ne, ih hm hc]

/-- A canonical memory lists exactly the bytes that do not read as after power-on. -/
theorem Memory.mem_iff_read {m : Memory} (h : m.wf) (c : Host.Cell) :
    c ∈ m ↔ m.read c.1 = c.2 ∧ c.2 ≠ Config.powerOnByte c.1 := by
  constructor
  · intro hc
    exact ⟨Memory.read_of_mem h.1 hc, h.2 c hc⟩
  · rintro ⟨hread, hne⟩
    obtain ⟨d, hd, haddr⟩ : ∃ d ∈ m, d.1 = c.1 := by
      by_contra hnone
      exact hne (hread.symm.trans (Memory.read_unlisted fun d hd haddr => hnone ⟨d, hd, haddr⟩))
    have hbyte : d.2 = c.2 := by rw [← Memory.read_of_mem h.1 hd, haddr, hread]
    exact Prod.ext haddr hbyte ▸ hd

/-- Settles O17: both lists are sorted strictly by address and have the same entries. -/
theorem canonicalMemoriesAreDeterminedByTheirReads : Obligations.CanonicalMemoriesAreDeterminedByTheirReads := by
  intro m n hm hn hread
  have hirrefl : Std.Irrefl fun c d : Host.Cell => c.1 < d.1 := ⟨fun c => lt_irrefl c.1⟩
  have hantisymm : Std.Antisymm fun c d : Host.Cell => c.1 < d.1 := ⟨fun _ _ h h' => absurd h' h.asymm⟩
  refine hm.1.eq_of_mem_iff hn.1 fun c => ?_
  rw [Memory.mem_iff_read hm, Memory.mem_iff_read hn, hread]

end Sys2Proof.Machine
end

section
/-! Which operations write the grids RAW, INT and COL (spec/10_state.md R43 to R45): a step that changes one runs a command,
and each command changes only its own. -/

namespace Sys2Proof.Machine

/-! ### The grids a command leaves alone -/

theorem Executes.of_raw_ne {s t : State} {i : Instr} (h : Executes s i t) (hne : t.raw ≠ s.raw) :
    s.segv = 0b1111#4 ∧ s.prime = false ∧ (i = .asm ∨ i = .frame) := by
  cases h with
  | deliver hsegv hprime => exact ⟨hsegv, hprime, .inl rfl⟩
  | frame hsegv hprime => exact ⟨hsegv, hprime, .inr rfl⟩
  | _ => simp at hne

theorem Executes.of_int_ne {s t : State} {i : Instr} (h : Executes s i t) (hne : t.int ≠ s.int) :
    i = .scale ∨ i = .frame := by
  cases h with
  | scale => exact .inl rfl
  | frame => exact .inr rfl
  | _ => simp at hne

theorem Executes.of_col_ne {s t : State} {i : Instr} (h : Executes s i t) (hne : t.col ≠ s.col) :
    i = .map ∨ i = .frame := by
  cases h with
  | map => exact .inl rfl
  | frame => exact .inr rfl
  | _ => simp at hne

/-! ### The steps that leave every grid alone -/

/-- The three grids. -/
def State.grids (s : State) : Memory × Memory × Memory := (s.raw, s.int, s.col)

theorem WritesCsr.command_of_grids_ne {s t : State} {v : Word} {r : Csr} (h : WritesCsr s v r t)
    (hne : t.grids ≠ s.grids) : r = .cmd ∧ ∃ i, decode v = .ok i ∧ Executes s i t := by
  cases h with
  | command hdec hexec => exact ⟨rfl, _, hdec, hexec⟩
  | _ => exact absurd rfl hne

/-- A step that changes a grid is a CMD write of a command's word, and the command changes that grid. -/
theorem Steps.command_of_grid_ne {s t : State} (h : Steps s t) (grid : Memory × Memory × Memory → Memory)
    (hne : grid t.grids ≠ grid s.grids) :
    ∃ w rest i u, s.script = .write 0#19 (.b32 w) :: rest ∧ decode w = .ok i ∧
      Executes { s with script := rest } i u ∧ grid u.grids ≠ grid s.grids := by
  cases h with
  | write hscript hw =>
    cases hw with
    | csr hcsr =>
      obtain ⟨rfl, i, hdec, hexec⟩ := hcsr.command_of_grids_ne (ne_of_apply_ne grid hne)
      exact ⟨_, _, i, _, hscript, hdec, hexec, hne⟩
    | _ => exact absurd rfl hne
  | _ => exact absurd rfl hne

/-- Settles O43: the step runs a command, and the command is one that writes the grid. -/
theorem gridsAreWrittenOnlyByTheirCommands : Obligations.GridsAreWrittenOnlyByTheirCommands := by
  intro s t hstep
  have hsteps := Steps.of_step hstep
  refine ⟨fun hraw => ?_, fun hint => ?_, fun hcol => ?_⟩
  · obtain ⟨w, rest, i, u, hscript, hdec, hexec, hne⟩ := hsteps.command_of_grid_ne (fun g => g.1) hraw
    obtain ⟨hsegv, hprime, hi⟩ := hexec.of_raw_ne hne
    exact ⟨w, rest, hscript, hsegv, hprime, by simpa [hdec] using hi⟩
  · obtain ⟨w, rest, i, u, hscript, hdec, hexec, hne⟩ := hsteps.command_of_grid_ne (fun g => g.2.1) hint
    exact ⟨w, rest, hscript, by simpa [hdec] using hexec.of_int_ne hne⟩
  · obtain ⟨w, rest, i, u, hscript, hdec, hexec, hne⟩ := hsteps.command_of_grid_ne (fun g => g.2.2) hcol
    exact ⟨w, rest, hscript, by simpa [hdec] using hexec.of_col_ne hne⟩

end Sys2Proof.Machine
end

section
/-! The accepted accesses window by window (spec/20_memory.md R62 to R67), and what each is answered
(spec/40_bus_and_control.md R120, R121). -/

namespace Sys2Proof.Machine

/-! ### Which accesses a window takes -/

/-- The accesses of a window (R62, R67): its one width, its literal addresses, its alignment. -/
def Window.Takes : Window → Nat → Width → Prop
  | .csr, a, w => w = .word ∧ a < 0x40 ∧ a % 4 = 0
  | .shelf, a, w => w = .byte ∧ ∃ slot k, slot < 4 ∧ k < 9840 ∧ a = 0x10000 + 0x4000 * slot + k
  | .raw, a, w => w = .half ∧ 0x20000 ≤ a ∧ a ≤ 0x295FF ∧ a % 2 = 0
  | .int, a, w => w = .byte ∧ 0x30000 ≤ a ∧ a ≤ 0x34AFF
  | .col, a, w => w = .byte ∧ 0x40000 ≤ a ∧ a ≤ 0x4E0FF
  | .pal, a, w => w = .byte ∧ 0x50000 ≤ a ∧ a ≤ 0x502FF

/-- The rows of the windows that have one (R62), besides the CSR window. -/
theorem regions_raw : ∀ g ∈ regions, g.window = .raw → g.base = 0x20000 ∧ g.size = 38400 ∧ g.width = .half := by decide

theorem regions_int : ∀ g ∈ regions, g.window = .int → g.base = 0x30000 ∧ g.size = 19200 ∧ g.width = .byte := by decide

theorem regions_col : ∀ g ∈ regions, g.window = .col → g.base = 0x40000 ∧ g.size = 57600 ∧ g.width = .byte := by decide

theorem regions_pal : ∀ g ∈ regions, g.window = .pal → g.base = 0x50000 ∧ g.size = 768 ∧ g.width = .byte := by decide

/-- The aligned accesses of a row of the map are accesses its window takes. -/
theorem Region.takes_of_holds {g : Region} (hmem : g ∈ regions) {a : Nat} (hholds : g.holds a = true)
    (halign : a % g.width.bytes = 0) : g.window.Takes a g.width := by
  rw [Region.holds_iff] at hholds
  cases hwindow : g.window with
  | csr =>
    obtain ⟨hbase, hsize, hwidth⟩ := regions_csr g hmem hwindow
    rw [hwidth] at halign ⊢
    exact ⟨rfl, by omega, halign⟩
  | shelf =>
    obtain ⟨⟨slot, hslot, hbase⟩, hsize, hwidth⟩ := regions_shelf g hmem hwindow
    unfold shelfAddr at hbase
    exact ⟨hwidth, slot, a - g.base, hslot, by omega, by omega⟩
  | raw =>
    obtain ⟨hbase, hsize, hwidth⟩ := regions_raw g hmem hwindow
    rw [hwidth] at halign ⊢
    exact ⟨rfl, by omega, by omega, halign⟩
  | int =>
    obtain ⟨hbase, hsize, hwidth⟩ := regions_int g hmem hwindow
    exact ⟨hwidth, by omega, by omega⟩
  | col =>
    obtain ⟨hbase, hsize, hwidth⟩ := regions_col g hmem hwindow
    exact ⟨hwidth, by omega, by omega⟩
  | pal =>
    obtain ⟨hbase, hsize, hwidth⟩ := regions_pal g hmem hwindow
    exact ⟨hwidth, by omega, by omega⟩

/-- An aligned access in a row of the map, of its width, is accepted. -/
theorem accepted_row {a : Nat} (x : Window) (base size : Nat) (w : Width) (hmem : ⟨x, base, size, w⟩ ∈ regions)
    (hlo : base ≤ a) (hhi : a < base + size) (halign : a % w.bytes = 0) : ∃ g, accepted a w = some g ∧ g.window = x :=
  ⟨_, accepted_iff.mpr ⟨hmem, (Region.holds_iff _ a).mpr ⟨hlo, hhi⟩, rfl, halign⟩, rfl⟩

/-- An access a window takes is accepted, and goes to a row of that window. -/
theorem accepted_of_takes {x : Window} {a : Nat} {w : Width} (h : x.Takes a w) :
    ∃ g, accepted a w = some g ∧ g.window = x := by
  cases x with
  | csr =>
    obtain ⟨rfl, hlt, halign⟩ := h
    exact accepted_row .csr 0x00000 64 .word (by decide) (by omega) (by omega) halign
  | shelf =>
    obtain ⟨rfl, slot, k, hslot, hk, rfl⟩ := h
    have hrow : ∀ slot < 4, ⟨.shelf, 0x10000 + 0x4000 * slot, 9840, .byte⟩ ∈ regions := by decide
    exact accepted_row .shelf _ 9840 .byte (hrow slot hslot) (by omega) (by omega) (Nat.mod_one _)
  | raw =>
    obtain ⟨rfl, hlo, hhi, halign⟩ := h
    exact accepted_row .raw 0x20000 38400 .half (by decide) hlo (by omega) halign
  | int =>
    obtain ⟨rfl, hlo, hhi⟩ := h
    exact accepted_row .int 0x30000 19200 .byte (by decide) hlo (by omega) (Nat.mod_one _)
  | col =>
    obtain ⟨rfl, hlo, hhi⟩ := h
    exact accepted_row .col 0x40000 57600 .byte (by decide) hlo (by omega) (Nat.mod_one _)
  | pal =>
    obtain ⟨rfl, hlo, hhi⟩ := h
    exact accepted_row .pal 0x50000 768 .byte (by decide) hlo (by omega) (Nat.mod_one _)

/-- The window of an accepted access is the one that takes it. -/
theorem takes_iff_accepted {x : Window} {a : Nat} {w : Width} :
    x.Takes a w ↔ ∃ g, accepted a w = some g ∧ g.window = x := by
  constructor
  · exact accepted_of_takes
  · rintro ⟨g, hacc, rfl⟩
    obtain ⟨hmem, hholds, rfl, halign⟩ := accepted_iff.mp hacc
    exact Region.takes_of_holds hmem hholds halign

/-! ### What a read is answered -/

/-- What a window shows at one of its addresses (R65 to R72, R122). -/
def State.shows (s : State) : Window → Nat → BusData
  | .csr, a => .b32 (s.readCsr (Csr.at a))
  | .shelf, a => .b8 (s.shelf.shelfByte (shelfSlotOf a) (shelfByteOf a))
  | .raw, a => .b16 (s.raw.rawCell (rawRowOf a) (rawColumnOf a))
  | .int, a => .b8 (s.int.intCell (intRowOf a) (intColumnOf a))
  | .col, a => .b8 (s.col.colByte (colRowOf a) (colColumnOf a) (colChannelOf a))
  | .pal, a => .b8 (Config.palRom s.palsel (palOffsetOf a))

theorem busRead_of_takes (s : State) {addr : Addr} {w : Width} {x : Window} (h : x.Takes addr.toNat w) :
    busRead s addr w = .value (s.shows x addr.toNat) := by
  obtain ⟨g, hacc, rfl⟩ := takes_iff_accepted.mp h
  cases hwindow : g.window <;> simp [busRead, hacc, hwindow, State.shows]

theorem busRead_eq_err_iff (s : State) (addr : Addr) (w : Width) :
    busRead s addr w = .err ↔ ¬∃ x : Window, x.Takes addr.toNat w := by
  constructor
  · rintro herr ⟨x, hx⟩
    rw [busRead_of_takes s hx] at herr
    cases herr
  · intro hnone
    cases hacc : accepted addr.toNat w with
    | none => simp [busRead, hacc]
    | some g => exact absurd ⟨g.window, takes_iff_accepted.mpr ⟨g, hacc, rfl⟩⟩ hnone

/-! ### What a write is answered -/

theorem busWrite_shelf (s : State) {addr : Addr} {slot k : Nat} (b : Byte) (hslot : slot < 4) (hk : k < 9840)
    (haddr : addr.toNat = shelfAddr slot k) :
    busWrite s addr (.b8 b) = .next ({ s with shelf := s.shelf.setShelfByte slot k b }.respond .ok) := by
  have htakes : Window.Takes .shelf (shelfAddr slot k) .byte := ⟨rfl, slot, k, hslot, hk, rfl⟩
  obtain ⟨g, hacc, hwindow⟩ := takes_iff_accepted.mp htakes
  simp [busWrite, BusData.width, haddr, hacc, hwindow, shelfSlotOf_shelfAddr hk, shelfByteOf_shelfAddr hk]

/-- The two windows that can be written answer OK. -/
theorem busWrite_ok_of_takes (s : State) {addr : Addr} {d : BusData} {x : Window} (hx : x = .csr ∨ x = .shelf)
    (h : x.Takes addr.toNat d.width) : ∃ t : State, busWrite s addr d = .next (t.respond .ok) := by
  obtain ⟨g, hacc, hwindow⟩ := takes_iff_accepted.mp h
  rcases hx with rfl | rfl
  · obtain ⟨r, v, rfl, rfl⟩ := accepted_csr_window hacc hwindow
    obtain ⟨t, hwrite, -⟩ := writeCsr_writesCsr s v r
    exact ⟨t, by rw [busWrite_csr, hwrite, thenRespond_next]⟩
  · obtain ⟨slot, k, b, hslot, hk, haddr, rfl⟩ := accepted_shelf_window hacc hwindow
    exact ⟨_, busWrite_shelf s b hslot hk haddr⟩

/-- Everywhere else the answer is ERR and nothing changes. -/
theorem busWrite_err_of_not_takes (s : State) {addr : Addr} {d : BusData}
    (hcsr : ¬Window.Takes .csr addr.toNat d.width) (hshelf : ¬Window.Takes .shelf addr.toNat d.width) :
    busWrite s addr d = .next (s.respond .err) := by
  cases hacc : accepted addr.toNat d.width with
  | none => simp [busWrite, hacc]
  | some g =>
    cases hwindow : g.window with
    | csr => exact absurd (takes_iff_accepted.mpr ⟨g, hacc, hwindow⟩) hcsr
    | shelf => exact absurd (takes_iff_accepted.mpr ⟨g, hacc, hwindow⟩) hshelf
    | _ => simp [busWrite, hacc, hwindow]

theorem busWrite_eq_err_iff (s : State) (addr : Addr) (d : BusData) :
    busWrite s addr d = .next (s.respond .err) ↔
      ¬(Window.Takes .csr addr.toNat d.width ∨ Window.Takes .shelf addr.toNat d.width) := by
  constructor
  · intro herr hwritable
    obtain ⟨t, hok⟩ : ∃ t : State, busWrite s addr d = .next (t.respond .ok) :=
      hwritable.elim (busWrite_ok_of_takes s (.inl rfl)) (busWrite_ok_of_takes s (.inr rfl))
    have hstates : s.respond .err = t.respond .ok := by simpa using herr.symm.trans hok
    simpa using congrArg State.responses hstates
  · intro hoff
    exact busWrite_err_of_not_takes s (fun hcsr => hoff (.inl hcsr)) (fun hshelf => hoff (.inr hshelf))

/-! ### A step that reads -/

theorem step_read {s : State} {addr : Addr} {w : Width} {rest : List HostOp} (h : s.script = .read addr w :: rest) :
    step s = .next { s with script := rest, responses := busRead { s with script := rest } addr w :: s.responses } :=
  step_cons h

/-- A read of an address in a window is answered with what the window shows there. -/
theorem step_read_of_takes {s : State} {a : Nat} {w : Width} {rest : List HostOp} {x : Window} (ha : a < 2 ^ 19)
    (h : x.Takes a w) (hscript : s.script = .read (BitVec.ofNat 19 a) w :: rest) :
    step s = .next { s with script := rest, responses := .value (s.shows x a) :: s.responses } := by
  have haddr : (BitVec.ofNat 19 a).toNat = a := Nat.mod_eq_of_lt ha
  have hshows : State.shows { s with script := rest } x a = s.shows x a := by cases x <;> rfl
  rw [step_read hscript, busRead_of_takes _ (haddr.symm ▸ h), haddr, hshows]

/-! ### What the windows show at the address of a cell -/

theorem State.shows_shelf (s : State) (slot : Nat) {k : Nat} (hk : k < 9840) :
    s.shows .shelf (shelfAddr slot k) = .b8 (s.shelf.shelfByte slot k) := by
  simp only [State.shows, shelfSlotOf_shelfAddr hk, shelfByteOf_shelfAddr hk]

theorem State.shows_raw (s : State) (r : Nat) {c : Nat} (hc : c < 160) :
    s.shows .raw (rawAddr r c) = .b16 (s.raw.rawCell r c) := by
  have hrow : rawRowOf (rawAddr r c) = r := by unfold rawRowOf rawAddr; omega
  have hcolumn : rawColumnOf (rawAddr r c) = c := by unfold rawColumnOf rawAddr; omega
  simp only [State.shows, hrow, hcolumn]

theorem State.shows_int (s : State) (r : Nat) {c : Nat} (hc : c < 160) :
    s.shows .int (intAddr r c) = .b8 (s.int.intCell r c) := by
  have hrow : intRowOf (intAddr r c) = r := by unfold intRowOf intAddr; omega
  have hcolumn : intColumnOf (intAddr r c) = c := by unfold intColumnOf intAddr; omega
  simp only [State.shows, hrow, hcolumn]

theorem State.shows_col (s : State) (r : Nat) {c ch : Nat} (hc : c < 160) (hch : ch < 3) :
    s.shows .col (colAddr r c ch) = .b8 (s.col.colByte r c ch) := by
  have hrow : colRowOf (colAddr r c ch) = r := by unfold colRowOf colAddr; omega
  have hcolumn : colColumnOf (colAddr r c ch) = c := by unfold colColumnOf colAddr; omega
  have hchannel : colChannelOf (colAddr r c ch) = ch := by unfold colChannelOf colAddr; omega
  simp only [State.shows, hrow, hcolumn, hchannel]

theorem State.shows_pal (s : State) (k : Nat) : s.shows .pal (0x50000 + k) = .b8 (Config.palRom s.palsel k) := by
  have hoffset : palOffsetOf (0x50000 + k) = k := Nat.add_sub_cancel_left _ k
  simp only [State.shows, hoffset]

/-! ### The statements -/

/-- Settles O12: the step adds the value of the read to the responses. -/
theorem readsChangeNothing : Obligations.ReadsChangeNothing := by
  intro s rest addr w hscript
  exact ⟨_, step_read hscript⟩

/-- Settles O13: ERR is the answer exactly where no window takes the access. -/
theorem readsErrExactlyOffTheMap : Obligations.ReadsErrExactlyOffTheMap := by
  intro s rest addr w hscript
  have hstep : step s = .next { s with script := rest, responses := .err :: s.responses } ↔
      busRead { s with script := rest } addr w = .err := by
    rw [step_read hscript]
    simp
  rw [hstep, busRead_eq_err_iff]
  refine not_congr ⟨?_, ?_⟩
  · rintro ⟨x, hx⟩
    cases x with
    | csr => exact .inl hx
    | shelf => exact .inr (.inl hx)
    | raw => exact .inr (.inr (.inl hx))
    | int => exact .inr (.inr (.inr (.inl hx)))
    | col => exact .inr (.inr (.inr (.inr (.inl hx))))
    | pal => exact .inr (.inr (.inr (.inr (.inr hx))))
  · rintro (hcsr | hshelf | hraw | hint | hcol | hpal)
    exacts [⟨.csr, hcsr⟩, ⟨.shelf, hshelf⟩, ⟨.raw, hraw⟩, ⟨.int, hint⟩, ⟨.col, hcol⟩, ⟨.pal, hpal⟩]

/-- Settles O14: the CSR words and the shelf bytes are answered OK, every other write ERR. -/
theorem writesErrExactlyOffTheWritableMap : Obligations.WritesErrExactlyOffTheWritableMap := by
  intro s rest addr d hscript
  rw [step_cons hscript]
  exact busWrite_eq_err_iff { s with script := rest } addr d

/-- Settles O15: the address of each cell is in its window, and the window shows the cell there. -/
theorem windowReadsGiveTheirCells : Obligations.WindowReadsGiveTheirCells := by
  refine ⟨?_, ?_, ?_, ?_⟩
  · intro s rest r c hr hc hscript
    have htakes : Window.Takes .raw (rawAddr r c) .half := by unfold rawAddr; exact ⟨rfl, by omega, by omega, by omega⟩
    rw [step_read_of_takes (by unfold rawAddr; omega) htakes hscript, State.shows_raw s r hc]
  · intro s rest r c hr hc hscript
    rw [Nat.add_assoc] at hscript
    have htakes : Window.Takes .int (intAddr r c) .byte := by unfold intAddr; exact ⟨rfl, by omega, by omega⟩
    rw [step_read_of_takes (by unfold intAddr; omega) htakes hscript, State.shows_int s r hc]
  · intro s rest r c ch hr hc hch hscript
    rw [Nat.add_assoc] at hscript
    have htakes : Window.Takes .col (colAddr r c ch) .byte := by unfold colAddr; exact ⟨rfl, by omega, by omega⟩
    rw [step_read_of_takes (by unfold colAddr; omega) htakes hscript, State.shows_col s r hc hch]
  · intro s rest k hk hscript
    have htakes : Window.Takes .pal (0x50000 + k) .byte := ⟨rfl, by omega, by omega⟩
    rw [step_read_of_takes (by omega) htakes hscript, State.shows_pal]

/-- Settles O16: the address is in the shelf window, where a write is one memory write and a read shows the byte. -/
theorem shelfWindowStoresAndReadsBytes : Obligations.ShelfWindowStoresAndReadsBytes := by
  constructor
  · intro s rest slot k b hslot hk hscript
    have haddr : (BitVec.ofNat 19 (shelfAddr slot k)).toNat = shelfAddr slot k :=
      Nat.mod_eq_of_lt (by unfold shelfAddr; omega)
    have hwrite := busWrite_shelf { s with script := rest } b hslot hk haddr
    refine ⟨_, (step_cons hscript).trans hwrite, ?_, fun a hother => ?_, rfl⟩
    · exact Memory.read_write_same s.shelf (shelfAddr slot k) b
    · exact Memory.read_write_other s.shelf b hother
  · intro s rest slot k hslot hk hscript
    have htakes : Window.Takes .shelf (shelfAddr slot k) .byte := ⟨rfl, slot, k, hslot, hk, rfl⟩
    rw [step_read_of_takes (by unfold shelfAddr; omega) htakes hscript, State.shows_shelf s slot hk]

end Sys2Proof.Machine
end

section
/-! The host's two lists (log entry 1): no command or CSR write touches them, a bus operation adds one response, a hard reset
none (spec/20_memory.md R61, spec/30_encoding.md R107). -/

namespace Sys2Proof.Machine

theorem Executes.keeps_host {s t : State} {i : Instr} (h : Executes s i t) :
    t.script = s.script ∧ t.responses = s.responses := by
  cases h with
  | _ => constructor <;> simp

theorem WritesCsr.keeps_host {s t : State} {v : Word} {r : Csr} (h : WritesCsr s v r t) :
    t.script = s.script ∧ t.responses = s.responses := by
  cases h with
  | command _ hexec => exact hexec.keeps_host
  | _ => exact ⟨rfl, rfl⟩

theorem WritesBus.responds {s t : State} {addr : Addr} {d : BusData} (h : WritesBus s addr d t) :
    t.script = s.script ∧ ∃ r, t.responses = r :: s.responses := by
  cases h with
  | csr hcsr =>
    obtain ⟨hscript, hresponses⟩ := hcsr.keeps_host
    exact ⟨hscript, .ok, congrArg (Response.ok :: ·) hresponses⟩
  | _ => exact ⟨rfl, _, rfl⟩

/-- Settles O8, by the kind of the host operation. -/
theorem eachBusOperationIsAnsweredOnce : Obligations.EachBusOperationIsAnsweredOnce := by
  intro s op rest hscript
  rw [step_cons hscript]
  cases op with
  | read addr w => exact ⟨_, rfl, rfl, nofun, fun _ => ⟨_, rfl⟩⟩
  | write addr d =>
    obtain ⟨t, hwrite, hbus⟩ := busWrite_writesBus { s with script := rest } addr d
    obtain ⟨hrest, hresponse⟩ := hbus.responds
    exact ⟨t, hwrite, hrest, nofun, fun _ => hresponse⟩
  | hreset => exact ⟨_, rfl, rfl, fun _ => rfl, fun hne => absurd rfl hne⟩

end Sys2Proof.Machine
end

section
/-! The command word (spec/30_encoding.md R100 to R105): which words fit a row of the opcode map, by the fields of R101, and
that decoding and encoding are inverse to each other on the legal words. -/

namespace Sys2Proof

/-! ### The rows of the opcode map -/

/-- A word is its five fields (R101). -/
theorem word_eq_iff_fields (w v : Word) : w = v ↔
    w.extractLsb' 24 8 = v.extractLsb' 24 8 ∧ w.extractLsb' 8 16 = v.extractLsb' 8 16 ∧
    w.extractLsb' 6 2 = v.extractLsb' 6 2 ∧ w.extractLsb' 4 2 = v.extractLsb' 4 2 ∧
    w.extractLsb' 0 4 = v.extractLsb' 0 4 := by
  simp only [← BitVec.toNat_inj, BitVec.extractLsb'_toNat, Nat.shiftRight_eq_div_pow]
  have := w.isLt
  have := v.isLt
  omega

/-- The mask of the RECV row fixes OP and the two reserved fields, and leaves LEN and SEG free (R103). -/
theorem and_recvMask_eq_iff (w : Word) : w &&& 0xFF0000CF#32 = 0x00000002#32 ↔
    w.extractLsb' 24 8 = 0#8 ∧ w.extractLsb' 6 2 = 0#2 ∧ w.extractLsb' 0 4 = 2#4 := by
  have hreserved : (0xFF0000CF#32).extractLsb' 24 8 = BitVec.allOnes 8 := rfl
  have hzero : (0xFF0000CF#32).extractLsb' 6 2 = BitVec.allOnes 2 := rfl
  have hop : (0xFF0000CF#32).extractLsb' 0 4 = BitVec.allOnes 4 := rfl
  rw [word_eq_iff_fields]
  simp only [BitVec.extractLsb'_and, hreserved, hzero, hop, BitVec.and_allOnes]
  simp

/-- A row of a command without operands takes one word only (R103). -/
@[simp] theorem OpRow.fits_fixed (p w : Word) (read : Word → Instr) :
    OpRow.fits { pattern := p, mask := 0xFFFFFFFF#32, read := read } w = decide (w = p) := by
  have hmask : w &&& 0xFFFFFFFF#32 = w := BitVec.and_allOnes
  simp [OpRow.fits, hmask, BEq.beq]

@[simp] theorem OpRow.fits_recv (w : Word) (read : Word → Instr) :
    OpRow.fits { pattern := 0x00000002#32, mask := 0xFF0000CF#32, read := read } w =
      decide (w &&& 0xFF0000CF#32 = 0x00000002#32) := rfl

/-! ### The decoder -/

/-- What the decoder answers is read by a row that the word fits (R105). -/
theorem row_of_decode {w : Word} {i : Instr} (h : decode w = .ok i) : ∃ r ∈ opRows, r.fits w = true ∧ r.read w = i := by
  unfold decode at h
  split at h
  · next r hr => exact ⟨r, List.mem_of_find?_eq_some hr, by simpa using List.find?_some hr, by simpa using h⟩
  · cases h

/-- A word is illegal when it fits no row (R105). -/
theorem decode_error_iff (w : Word) : (∃ e, decode w = .error e) ↔ ∀ r ∈ opRows, r.fits w = false := by
  have hnone : (∀ r ∈ opRows, r.fits w = false) ↔ opRows.find? (fun r => r.fits w) = none := by simp
  rw [hnone]
  cases hfind : opRows.find? (fun r => r.fits w) <;> simp [decode, hfind]

theorem decode_of_recvMask {w : Word} (h : w &&& 0xFF0000CF#32 = 0x00000002#32) :
    decode w = .ok (.recv (segField w) (lenField w)) := by
  have hnop : w ≠ 0x00000000#32 := by rintro rfl; exact absurd h (by decide)
  have hsrst : w ≠ 0x00000001#32 := by rintro rfl; exact absurd h (by decide)
  simp [decode, opRows, h, hnop, hsrst]

/-! ### The word of RECV -/

theorem wellFormed_recv_iff (seg len : Nat) : (Instr.recv seg len).WellFormed ↔ seg < 4 ∧ len < 65536 := by
  unfold Instr.WellFormed Instr.wellFormed
  simp

/-- LEN, SEG and OP do not overlap and fill the word of RECV (R102). -/
theorem toNat_encode_recv {seg len : Nat} (hseg : seg < 4) (hlen : len < 65536) :
    (encode (.recv seg len)).toNat = 2 + 16 * seg + 256 * len :=
  Nat.mod_eq_of_lt (by omega)

/-- The word of a well-formed RECV fits its row, and its fields are the operands. -/
theorem encode_recv_fields {seg len : Nat} (hseg : seg < 4) (hlen : len < 65536) :
    encode (.recv seg len) &&& 0xFF0000CF#32 = 0x00000002#32 ∧
    segField (encode (.recv seg len)) = seg ∧ lenField (encode (.recv seg len)) = len := by
  rw [and_recvMask_eq_iff]
  simp only [segField, lenField, ← BitVec.toNat_inj, BitVec.extractLsb'_toNat, Nat.shiftRight_eq_div_pow,
    toNat_encode_recv hseg hlen, BitVec.toNat_ofNat]
  omega

/-- A word that fits the RECV row is the word of the command read from it. -/
theorem encode_recv_of_fields {w : Word} (h : w &&& 0xFF0000CF#32 = 0x00000002#32) :
    (Instr.recv (segField w) (lenField w)).WellFormed ∧ encode (.recv (segField w) (lenField w)) = w := by
  have hseg : segField w < 4 := BitVec.isLt _
  have hlen : lenField w < 65536 := BitVec.isLt _
  refine ⟨(wellFormed_recv_iff _ _).mpr ⟨hseg, hlen⟩, BitVec.eq_of_toNat_eq ?_⟩
  rw [toNat_encode_recv hseg hlen]
  rw [and_recvMask_eq_iff] at h
  simp only [segField, lenField, ← BitVec.toNat_inj, BitVec.extractLsb'_toNat, Nat.shiftRight_eq_div_pow,
    BitVec.toNat_ofNat] at h ⊢
  have := w.isLt
  omega

/-- Each row reads well-formed commands, and gives back the word it read. -/
theorem OpRow.encode_read {r : OpRow} (hr : r ∈ opRows) {w : Word} (h : r.fits w = true) :
    (r.read w).WellFormed ∧ encode (r.read w) = w := by
  simp only [opRows, List.mem_cons, List.not_mem_nil, or_false] at hr
  rcases hr with rfl | rfl | rfl | rfl | rfl | rfl | rfl
  case inr.inr.inl => exact encode_recv_of_fields (of_decide_eq_true h)
  all_goals
    rw [OpRow.fits_fixed, decide_eq_true_eq] at h
    exact ⟨rfl, h.symm⟩

/-- The three cases of R104 are the words that fit no row: each row is a condition on the fields, and the fields are digits of
the word. -/
theorem illegal_iff_reserved (w : Word) : (∃ e, decode w = .error e) ↔
    (7 ≤ (w.extractLsb' 0 4).toNat ∨
      ((w.extractLsb' 0 4).toNat = 2 ∧ (w.extractLsb' 6 2 ≠ 0#2 ∨ w.extractLsb' 24 8 ≠ 0#8)) ∨
      ((w.extractLsb' 0 4).toNat ∈ [0, 1, 3, 4, 5, 6] ∧ w.extractLsb' 4 28 ≠ 0#28)) := by
  simp only [decode_error_iff, opRows, List.forall_mem_cons, OpRow.fits_fixed, OpRow.fits_recv, decide_eq_false_iff_not,
    and_recvMask_eq_iff]
  simp only [List.mem_cons, List.not_mem_nil, false_implies, implies_true, and_true, or_false, ne_eq, ← BitVec.toNat_inj,
    BitVec.extractLsb'_toNat, Nat.shiftRight_eq_div_pow, BitVec.toNat_ofNat]
  have := w.isLt
  omega

/-! ### The statements -/

/-- Settles O1: the commands without operands by evaluation, RECV by the fields of its word. -/
theorem decodeOfEncodeIsTheCommand : Obligations.DecodeOfEncodeIsTheCommand := by
  intro i hwf
  cases i with
  | recv seg len =>
    obtain ⟨hseg, hlen⟩ := (wellFormed_recv_iff seg len).mp hwf
    obtain ⟨hfits, hsegField, hlenField⟩ := encode_recv_fields hseg hlen
    rw [decode_of_recvMask hfits, hsegField, hlenField]
  | _ => rfl

/-- Settles O2: the word fits the row that reads it. -/
theorem encodeOfDecodeIsTheWord : Obligations.EncodeOfDecodeIsTheWord := by
  intro w i hdec
  obtain ⟨r, hr, hfits, rfl⟩ := row_of_decode hdec
  exact OpRow.encode_read hr hfits

/-- Settles O4: each word is the word of its command. -/
theorem writtenOutWordsDecode : Obligations.WrittenOutWordsDecode :=
  have hround := decodeOfEncodeIsTheCommand
  ⟨hround .nop rfl, hround .srst rfl, hround (.recv 2 9840) rfl, hround (.recv 3 65535) rfl, hround .asm rfl,
    hround .scale rfl, hround .map rfl, hround .frame rfl⟩

end Sys2Proof
end

section
/-! A write to CMD (spec/40_bus_and_control.md R126, R127): it runs the command its word decodes to, or raises ILLCMD. -/

namespace Sys2Proof.Machine

/-- A step that writes CMD dispatches the word and answers OK when the command is done (R126). -/
theorem step_cmd {s : State} {rest : List HostOp} {w : Word} (h : s.script = .write 0#19 (.b32 w) :: rest) :
    step s = thenRespond .ok (runCommand { s with script := rest } w) :=
  (step_cons h).trans (busWrite_csr { s with script := rest } .cmd w)

theorem runCommand_of_ok {s : State} {w : Word} {i : Instr} (h : decode w = .ok i) : runCommand s w = exec i s := by
  rw [runCommand, h]

theorem runCommand_of_error {s : State} {w : Word} {e : Illegal} (h : decode w = .error e) :
    runCommand s w = .next (s.raise .illcmd) := by
  rw [runCommand, h]

/-- Raising ILLCMD sets its flag and changes nothing else (R127, R201). -/
theorem State.raise_illcmd_eq (s : State) : s.raise .illcmd = { s with illcmd := true } := by
  apply State.ext <;> simp

/-- The 32 bits of a word numbered as in the opcode table are the word (R100). -/
theorem tableWord_toNat (w : Word) : tableWord 32 w.toNat = w := by
  rw [tableWord, Nat.mod_eq_of_lt w.isLt, BitVec.ofNat_toNat, BitVec.setWidth_eq]

/-- A step that writes the word of a command to CMD. -/
theorem step_of_decode {s t : State} {rest : List HostOp} {w : Word} {i : Instr}
    (hscript : s.script = .write 0#19 (.b32 w) :: rest) (hdec : decode w = .ok i)
    (hexec : exec i { s with script := rest } = .next t) : step s = .next (t.respond .ok) := by
  rw [step_cmd hscript, runCommand_of_ok hdec, hexec, thenRespond_next]

/-- Settles O5: a CMD write of a legal word, and `withFetchWord` as one. -/
theorem stepRunsTheDecodedCommand : Obligations.StepRunsTheDecodedCommand := by
  constructor
  · intro s t rest w i hscript hdec hexec
    exact step_of_decode hscript hdec hexec
  · intro s t w i hdec hexec
    have hscript : (s.withFetchWord 32 w.toNat).script = .write 0#19 (.b32 w) :: s.script := by
      rw [State.withFetchWord, tableWord_toNat]
    exact step_of_decode hscript hdec hexec

/-- Settles O3: the words that fit no row, the dispatch of such a word, and the round trip of RECV. -/
theorem illegalWordsAreExactlyTheReservedOnes : Obligations.IllegalWordsAreExactlyTheReservedOnes := by
  refine ⟨illegal_iff_reserved, ?_, ?_⟩
  · intro s rest w e hdec hscript
    rw [step_cmd hscript, runCommand_of_error hdec, thenRespond_next, State.raise_illcmd_eq]
    rfl
  · intro seg len hseg hlen
    exact decodeOfEncodeIsTheCommand (.recv seg len) ((wellFormed_recv_iff seg len).mpr ⟨hseg, hlen⟩)

end Sys2Proof.Machine
end

section
/-! PUT (spec/30_encoding.md R108): two writes of a shelf byte store one sample word, big-endian (spec/20_memory.md R65). -/

namespace Sys2Proof.Machine

/-- A run begins with its first step. -/
theorem run_of_step {s t : State} (h : step s = .next t) (n : Nat) :
    Sys2Proof.core.run (n + 1) s = Sys2Proof.core.run n t := by
  have hstep : Sys2Proof.core.step s = .next t := h
  simp only [Host.Core.run, hstep]

/-- A step that writes a shelf byte (R68). -/
theorem step_write_shelf {s : State} {slot k : Nat} {b : Byte} {rest : List HostOp} (hslot : slot < 4) (hk : k < 9840)
    (h : s.script = .write (BitVec.ofNat 19 (shelfAddr slot k)) (.b8 b) :: rest) :
    step s = .next { s with
      script := rest, shelf := s.shelf.setShelfByte slot k b, responses := .ok :: s.responses } := by
  have haddr : (BitVec.ofNat 19 (shelfAddr slot k)).toNat = shelfAddr slot k :=
    Nat.mod_eq_of_lt (by unfold shelfAddr; omega)
  exact (step_cons h).trans (busWrite_shelf { s with script := rest } b hslot hk haddr)

/-- SHELF after both bytes of a sample word are stored (R65). -/
def Memory.setSampleWord (m : Memory) (seg i : Nat) (v : Half) : Memory :=
  (m.setShelfByte seg (2 * i) (v.extractLsb' 8 8)).setShelfByte seg (2 * i + 1) (v.extractLsb' 0 8)

theorem Memory.sampleWord_setSampleWord (m : Memory) (seg i : Nat) (v : Half) :
    (m.setSampleWord seg i v).sampleWord seg i = v := by
  have hne : shelfAddr seg (2 * i) ≠ shelfAddr seg (2 * i + 1) := by unfold shelfAddr; omega
  have hhigh : (m.setSampleWord seg i v).shelfByte seg (2 * i) = v.extractLsb' 8 8 :=
    (Memory.read_write_other _ _ hne).trans (Memory.read_write_same _ _ _)
  have hlow : (m.setSampleWord seg i v).shelfByte seg (2 * i + 1) = v.extractLsb' 0 8 := Memory.read_write_same _ _ _
  rw [Memory.sampleWord, hhigh, hlow, append_bytes]

theorem Memory.read_setSampleWord_other (m : Memory) {seg i a : Nat} (v : Half) (hhigh : a ≠ shelfAddr seg (2 * i))
    (hlow : a ≠ shelfAddr seg (2 * i + 1)) : (m.setSampleWord seg i v).read a = m.read a :=
  (Memory.read_write_other _ _ hlow).trans (Memory.read_write_other _ _ hhigh)

/-- The two steps of PUT. -/
theorem run_put (s : State) {seg i : Nat} (v : Half) (hseg : seg < 4) (hi : i < 4920) :
    Sys2Proof.core.run 2 (s.issue (Script.put seg i v)) =
      .next { s with shelf := s.shelf.setSampleWord seg i v, responses := .ok :: .ok :: s.responses } := by
  rw [run_of_step (step_write_shelf hseg (by omega : 2 * i < 9840) rfl),
    run_of_step (step_write_shelf hseg (by omega : 2 * i + 1 < 9840) rfl)]
  rfl

/-- Settles O33: the two steps store the two bytes of the word. -/
theorem putStoresASampleWord : Obligations.PutStoresASampleWord := by
  intro s seg i v hseg hi
  exact ⟨_, run_put s v hseg hi, Memory.sampleWord_setSampleWord s.shelf seg i v,
    fun _ hhigh hlow => Memory.read_setSampleWord_other s.shelf v hhigh hlow, rfl⟩

end Sys2Proof.Machine
end

section
/-! Header bytes (spec/30_encoding.md R94, spec/41_assembler.md R145): the commands read the shelf only in its sample words, so
two states whose shelves agree there go the same way. -/

namespace Sys2Proof.Machine

theorem loop_congr {α : Type} {body body' : Nat → α → α} {n : Nat} (x : α) (h : ∀ k < n, ∀ y, body k y = body' k y) :
    loop body n x = loop body' n x := by
  induction n with
  | zero => rfl
  | succ n ih =>
    rw [loop_succ, loop_succ, ih fun k hk => h k (Nat.lt_succ_of_lt hk)]
    exact h n (Nat.lt_succ_self n) _

/-- The shelves agree in the sample bytes, 4 to 163, of every packet; the header bytes may differ. -/
def Memory.SameSamples (m m' : Memory) : Prop :=
  ∀ slot j k, slot < 4 → j < 60 → 4 ≤ k → k < 164 →
    m'.shelfByte slot (164 * j + k) = m.shelfByte slot (164 * j + k)

/-- Words 2 to 81 of a packet are its sample bytes. -/
theorem Memory.SameSamples.sampleWord_eq {m m' : Memory} (h : m.SameSamples m') {slot j p : Nat} (hslot : slot < 4)
    (hj : j < 60) (hp : 2 ≤ p) (hp' : p < 82) :
    m'.sampleWord slot (sampleIndex j p) = m.sampleWord slot (sampleIndex j p) := by
  have hhigh : 2 * sampleIndex j p = 164 * j + 2 * p := by simp only [sampleIndex, Config.packetWords]; omega
  have hlow : 2 * sampleIndex j p + 1 = 164 * j + (2 * p + 1) := by omega
  rw [Memory.sampleWord, Memory.sampleWord, hlow, hhigh, h slot j (2 * p) hslot hj (by omega) (by omega),
    h slot j (2 * p + 1) hslot hj (by omega) (by omega)]

/-- The packet loop reads the words from `p` to 81 only. -/
theorem Memory.SameSamples.decodeWords_eq {m m' : Memory} (h : m.SameSamples m') {s j left p : Nat} (hs : s < 4)
    (hj : j < 60) (hp : 2 ≤ p) (hl : p + left = 82) (x : Assembly) :
    decodeWords m' s j left p x = decodeWords m s j left p x := by
  induction left generalizing p x with
  | zero => rfl
  | succ left ih =>
    simp only [decodeWords, h.sampleWord_eq hs hj hp (by omega : p < 82), ih (by omega : 2 ≤ p + 1) (by omega)]

theorem Memory.SameSamples.assemble_eq {m m' : Memory} (h : m.SameSamples m') (raw : Memory) :
    assemble m' raw = assemble m raw :=
  loop_congr _ fun _ hs _ => loop_congr _ fun _ hj _ => h.decodeWords_eq hs hj (by decide) (by decide) _

/-- A delivered assembly uses the shelf only to assemble. -/
theorem Memory.SameSamples.deliver_eq {s : State} {m : Memory} (h : s.shelf.SameSamples m) :
    State.deliver { s with shelf := m } = { s.deliver with shelf := m } := by
  simp only [State.deliver, h.assemble_eq]
  rfl

/-- SCALE and MAP do not read the shelf (R160, R180). -/
theorem State.scaleBody_withShelf (s : State) (m : Memory) :
    State.scaleBody { s with shelf := m } = { s.scaleBody with shelf := m } := rfl

theorem State.mapBody_withShelf (s : State) (m : Memory) :
    State.mapBody { s with shelf := m } = { s.mapBody with shelf := m } := by
  simp only [State.mapBody, State.raiseIf]

/-! ### The branches of the commands -/

/-- What a branch leaves is what the command answers. -/
theorem Executes.exec_eq {s t : State} {i : Instr} (h : Executes s i t) : exec i s = .next t := by
  cases h with
  | nop => rfl
  | srst => rfl
  | commit seg => rfl
  | uncommit seg hlen => exact if_neg hlen
  | refuse hrefuse =>
    cases i with
    | asm => exact execAsm_refused hrefuse
    | scale => exact execScale_refused hrefuse
    | map => exact execMap_refused hrefuse
    | frame => exact execFrame_refused hrefuse
    | _ => exact hrefuse.elim
  | priming hi hsegv hprime =>
    rcases hi with rfl | rfl
    · exact execAsm_priming hsegv hprime
    · exact execFrame_priming hsegv hprime
  | deliver hsegv hprime => exact execAsm_deliver hsegv hprime
  | scale hrawv => exact execScale_executed hrawv
  | map hintv => exact execMap_executed hintv
  | frame hsegv hprime => exact execFrame_deliver hsegv hprime

/-- A command goes the same way on a shelf with the same samples, and leaves that shelf. -/
theorem Executes.withShelf {s t : State} {i : Instr} {m : Memory} (h : Executes s i t) (hm : s.shelf.SameSamples m) :
    Executes { s with shelf := m } i { t with shelf := m } := by
  cases h with
  | nop => exact .nop
  | srst => exact .srst
  | commit seg => exact .commit seg
  | uncommit seg hlen => exact .uncommit seg hlen
  | refuse hrefuse => exact .refuse (by cases i <;> exact hrefuse)
  | priming hi hsegv hprime => exact .priming hi hsegv hprime
  | deliver hsegv hprime =>
    rw [← hm.deliver_eq]
    exact .deliver hsegv hprime
  | scale hrawv =>
    rw [← State.scaleBody_withShelf]
    exact .scale hrawv
  | map hintv =>
    rw [← State.mapBody_withShelf]
    exact .map hintv
  | frame hsegv hprime =>
    rw [← State.mapBody_withShelf, ← State.scaleBody_withShelf, ← hm.deliver_eq]
    exact .frame hsegv hprime

/-- Settles O32: by the branches of the command; only a delivered assembly reads the shelf. -/
theorem headerBytesNeverMatter : Obligations.HeaderBytesNeverMatter := by
  intro i s shelf' hsame
  obtain ⟨t, hexec, hbranch⟩ := exec_executes i s
  exact ⟨t, hexec, (hbranch.withShelf hsame).exec_eq⟩

end Sys2Proof.Machine
end

section
/-! Totality (spec/40_bus_and_control.md R132) and what every command keeps (R129), both from the cases of a step. -/

namespace Sys2Proof.Machine

/-- Settles O7: each case of a step answers a next state. -/
theorem everyStepHasANextState : Obligations.EveryStepHasANextState := by
  intro s
  obtain ⟨t, hstep, -⟩ := step_steps s
  exact ⟨t, hstep⟩

/-! ### The sticky flags after each operation -/

@[simp] theorem State.flag_setSegv (s : State) (seg : Nat) (v : Bool) (c : Condition) :
    (s.setSegv seg v).flag c = s.flag c := by
  cases c <;> rfl

@[simp] theorem State.flag_respond (s : State) (r : Response) (c : Condition) : (s.respond r).flag c = s.flag c := by
  cases c <;> rfl

@[simp] theorem State.flag_priming (s : State) (c : Condition) : s.priming.flag c = s.flag c := by
  cases c <;> rfl

/-- A refused command raises SEQERR (R128). -/
@[simp] theorem State.flag_refuseCommand (s : State) (c : Condition) :
    s.refuseCommand.flag c = (s.flag c || decide (.seqerr = c)) :=
  s.flag_raise .seqerr c

/-- An assembly raises DROPPED when it counted a truncated packet (R149). -/
@[simp] theorem State.flag_deliver (s : State) (c : Condition) :
    s.deliver.flag c = (s.flag c || (s.shelf.truncatedPackets != 0 && decide (.dropped = c))) := by
  cases c <;> simp [State.flag]

/-- SCALE raises DEGEN when the bounds of the range are equal (R165). -/
@[simp] theorem State.flag_scaleBody (s : State) (c : Condition) :
    s.scaleBody.flag c = (s.flag c || (s.upperBound == s.lowerBound && decide (.degen = c))) := by
  cases c <;> simp [State.flag]

/-- MAP raises nothing, since its clamp moves no offset (R184). -/
@[simp] theorem State.flag_mapBody (s : State) (c : Condition) : s.mapBody.flag c = s.flag c := by
  cases c <;> simp [State.flag]

/-! ### What a command keeps -/

/-- No command clears a sticky flag: a branch raises conditions and does nothing else to the flags. -/
theorem Executes.keeps_flag {s t : State} {i : Instr} (h : Executes s i t) {c : Condition} (hc : s.flag c = true) :
    t.flag c = true := by
  cases h with
  | nop => exact hc
  | srst => cases c <;> exact hc
  | _ => simp [hc]

/-- No command writes the shelf or a configuration register. -/
theorem Executes.keeps_configuration {s t : State} {i : Instr} (h : Executes s i t) :
    t.shelf = s.shelf ∧ t.rangeMin = s.rangeMin ∧ t.rangeMax = s.rangeMax ∧ t.autoMin = s.autoMin ∧
      t.autoMax = s.autoMax ∧ t.palsel = s.palsel := by
  cases h with
  | _ => simp

/-- Settles O40, by the branches of the command. -/
theorem commandsKeepShelfConfigurationAndFlags : Obligations.CommandsKeepShelfConfigurationAndFlags := by
  intro i s
  obtain ⟨t, hexec, hbranch⟩ := exec_executes i s
  obtain ⟨hshelf, hmin, hmax, hautoMin, hautoMax, hpalsel⟩ := hbranch.keeps_configuration
  obtain ⟨hscript, hresponses⟩ := hbranch.keeps_host
  exact ⟨t, hexec, hshelf, hmin, hmax, hautoMin, hautoMax, hpalsel, fun _ => hbranch.keeps_flag, hscript, hresponses⟩

end Sys2Proof.Machine
end

section
/-! Reads and writes of the CSR slots (spec/40_bus_and_control.md R122 to R125): one step for a read of any slot and one for a
write, then the slots. -/

namespace Sys2Proof.Machine

/-! ### The step of a CSR access -/

/-- The host's two lists are not read by a CSR (R8). -/
@[simp] theorem State.readCsr_withScript (s : State) (script : List HostOp) (r : Csr) :
    State.readCsr { s with script := script } r = s.readCsr r := by
  cases r <;> rfl

/-- A word read of a CSR slot is answered with the slot's value (R122). -/
theorem step_readCsr {s : State} {rest : List HostOp} {r : Csr} (h : s.script = .read r.addr .word :: rest) :
    step s = .next { s with script := rest, responses := .value (.b32 (s.readCsr r)) :: s.responses } := by
  rw [step_read h, busRead_csr, State.readCsr_withScript]

/-- A word write of a CSR slot is the slot's write, answered OK (R121, R123). -/
theorem step_writeCsr {s t : State} {rest : List HostOp} {r : Csr} {v : Word}
    (h : s.script = .write r.addr (.b32 v) :: rest) (hwrite : State.writeCsr { s with script := rest } v r = .next t) :
    step s = .next (t.respond .ok) := by
  rw [step_cons h, hostOperation, busWrite_csr, hwrite, thenRespond_next]

/-! ### The values and the effects -/

/-- MODE reads AUTO_MAX at bit 1 and AUTO_MIN at bit 0 (R27). -/
theorem State.readCsr_mode (s : State) : s.readCsr .mode = BitVec.ofNat 32 (2 * s.autoMax.toNat + s.autoMin.toNat) := by
  rw [State.readCsr]
  cases s.autoMax <;> cases s.autoMin <;> rfl

/-- A legal palette id is taken, an illegal one raises CFGERR (R28). -/
theorem State.writePalsel_eq (s : State) (v : Word) : s.writePalsel v =
    { s with
      palsel := if v.toNat % 256 < Config.nPalettes then BitVec.ofNat 8 v.toNat else s.palsel
      cfgerr := s.cfgerr || decide (Config.nPalettes ≤ v.toNat % 256) } := by
  have hid : v.extractLsb' 0 8 = BitVec.ofNat 8 v.toNat := rfl
  rw [State.writePalsel, hid, BitVec.toNat_ofNat]
  by_cases hlegal : v.toNat % 256 < Config.nPalettes
  · simp [hlegal]
  · rw [if_neg hlegal, if_neg hlegal, decide_eq_true (Nat.le_of_not_lt hlegal)]
    apply State.ext <;> simp

/-- The slots other than the first six are read-only or reserved: a write to them changes nothing (R36, R123). -/
theorem State.writeCsr_readOnly (s : State) (v : Word) {r : Csr}
    (hr : r ∉ [.cmd, .status, .rangeMin, .rangeMax, .mode, .palsel]) : s.writeCsr v r = .next s := by
  cases r with
  | cmd | status | rangeMin | rangeMax | mode | palsel => exact absurd (by decide) hr
  | _ => rfl

/-- The first six slots lie below offset 0x18 (R22). -/
theorem Csr.at_readOnly : ∀ k < 64, 0x18 ≤ k → Csr.at k ∉ [.cmd, .status, .rangeMin, .rangeMax, .mode, .palsel] := by
  decide

/-! ### The statements -/

/-- Settles O18, by the slot; only MODE is put together from two fields. -/
theorem csrReadValues : Obligations.CsrReadValues := by
  intro s rest r hscript
  rw [step_readCsr hscript]
  cases r with
  | mode => rw [State.readCsr_mode]
  | _ => rfl

/-- Settles O19, by the bits of the STATUS word. -/
theorem statusReadsItsFields : Obligations.StatusReadsItsFields := by
  constructor
  · intro s rest hscript
    obtain ⟨hprime, hsegv, hrawv, hintv, hcolv, hflag, hzero⟩ := s.statusWord_bits
    exact ⟨s.statusWord, step_readCsr (r := .status) hscript, hprime, hsegv, hrawv, hintv, hcolv, hflag .dropped,
      hflag .degen, hflag .palclamp, hflag .lenerr, hflag .seqerr, hflag .illcmd, hflag .cfgerr, hzero⟩
  · intro rest
    have hvalue : State.reset.readCsr .status = 0x00000001#32 := by decide
    have hstep := step_readCsr (s := { State.reset with script := .read Csr.status.addr .word :: rest }) rfl
    rw [State.readCsr_withScript, hvalue] at hstep
    exact hstep

/-- Settles O20: the step is `clearFlags`, which the model's law reads flag by flag. -/
theorem statusWriteClearsSelectedFlags : Obligations.StatusWriteClearsSelectedFlags := by
  intro s rest v hscript
  refine ⟨_, step_writeCsr (r := .status) hscript rfl, fun c => ?_, rfl⟩
  have hrest : State.flag { s with script := rest } c = s.flag c := by cases c <;> rfl
  rw [State.flag_respond, State.flag_clearFlags, hrest]
  cases v.getLsbD c.code <;> simp

/-- Settles O21: three plain writes, and PALSEL by whether the id is legal. -/
theorem configurationWritesTakeTheirFieldsOnly : Obligations.ConfigurationWritesTakeTheirFieldsOnly := by
  refine ⟨?_, ?_, ?_, ?_⟩
  · intro s rest v hscript
    exact step_writeCsr (r := .rangeMin) hscript rfl
  · intro s rest v hscript
    exact step_writeCsr (r := .rangeMax) hscript rfl
  · intro s rest v hscript
    exact step_writeCsr (r := .mode) hscript rfl
  · intro s rest v hscript
    rw [step_writeCsr (r := .palsel) hscript rfl, State.writePalsel_eq]
    rfl

/-- Settles O22: the address is the offset of a read-only or reserved slot. -/
theorem readOnlyCsrWritesChangeNothing : Obligations.ReadOnlyCsrWritesChangeNothing := by
  intro s rest k v hlo hhi halign hscript
  have haddr : (Csr.at k).addr = BitVec.ofNat 19 k := by rw [Csr.addr, Csr.offset_at k (by omega) halign]
  rw [← haddr] at hscript
  exact step_writeCsr hscript (State.writeCsr_readOnly _ v (Csr.at_readOnly k (by omega) hlo))

end Sys2Proof.Machine
end

section
/-! The control commands (spec/40_bus_and_control.md R130, R131) and the refusals (R128). -/

namespace Sys2Proof.Machine

/-- A refusal sets SEQERR and nothing else (R128). -/
theorem State.refuseCommand_eq (s : State) : s.refuseCommand = { s with seqerr := true } := by
  apply State.ext <;> simp

theorem exec_of_refuses {s : State} {i : Instr} (h : s.Refuses i) : exec i s = .next { s with seqerr := true } := by
  rw [(Executes.refuse h).exec_eq, State.refuseCommand_eq]

/-- Settles O24: the word of NOP, and its one branch. -/
theorem nopChangesNothing : Obligations.NopChangesNothing := by
  obtain ⟨hnop, -⟩ := writtenOutWordsDecode
  exact ⟨hnop, fun s => Executes.nop.exec_eq⟩

/-- Settles O25: the word of SRST, and its one branch. -/
theorem srstSetsPrimeAndEmptiesTheShelf : Obligations.SrstSetsPrimeAndEmptiesTheShelf := by
  obtain ⟨-, hsrst, -⟩ := writtenOutWordsDecode
  exact ⟨hsrst, fun s => ⟨_, Executes.srst.exec_eq, rfl, fun _ _ => BitVec.getLsbD_zero, rfl⟩⟩

/-- Settles O26: each form is refused by its own precondition. -/
theorem refusedCommandsSetOnlySeqerr : Obligations.RefusedCommandsSetOnlySeqerr := by
  intro s
  refine ⟨fun hsegv => ?_, fun hrawv => ?_, fun hintv => ?_, fun hsegv => ?_⟩
  · exact exec_of_refuses (i := .asm) hsegv
  · exact exec_of_refuses (i := .scale) hrawv
  · exact exec_of_refuses (i := .map) hintv
  · exact exec_of_refuses (i := .frame) hsegv

end Sys2Proof.Machine
end

section
/-! The segment assembler (spec/41_assembler.md R141 to R151): RECV, the priming cycle, and a delivered assembly in the words
of its statements: packets and sample words on one side, cells of the frame on the other. -/

namespace Sys2Proof.Machine

/-! ### Placement -/

/-- Word `p` of packet `j` of segment `seg`, by its sample index, lands in the frame (R148). -/
theorem place_inFrame {seg j p : Nat} (hseg : seg < 4) (hj : j < 60) (hp' : p < 82) :
    placeRow seg (sampleIndex j p) < 120 ∧ placeColumn (sampleIndex j p) < 160 := by
  rw [placeRow_sampleIndex hp', placeColumn_sampleIndex hp']
  omega

/-- Settles O31: the placement by packet and word, and its inverse. -/
theorem placementIsABijectionOntoTheFrame : Obligations.PlacementIsABijectionOntoTheFrame := by
  constructor
  · intro seg j p hseg hj _ hp'
    exact place_inFrame hseg hj hp'
  · intro r c _ hc seg j p _ hj hp hp'
    have hrow : placeRow seg (82 * j + p) = j / 2 + 30 * seg := placeRow_sampleIndex hp'
    have hcolumn : placeColumn (82 * j + p) = p - 2 + 80 * (j % 2) := placeColumn_sampleIndex hp'
    rw [hrow, hcolumn]
    exact (and_congr eq_comm eq_comm).trans (place_eq_iff_source hj hp hp' hc)

/-! ### RECV and the priming cycle -/

/-- Settles O27: the two branches of RECV, by whether LEN is the length of a segment. -/
theorem recvCommitsItsSlot : Obligations.RecvCommitsItsSlot := by
  intro seg len s hwf
  obtain ⟨hseg, -⟩ := (wellFormed_recv_iff seg len).mp hwf
  refine ⟨decodeOfEncodeIsTheCommand _ hwf, ?_⟩
  by_cases hlen : len = 9840
  · subst hlen
    refine ⟨_, (Executes.commit seg).exec_eq, fun k hk => ?_, by simp, rfl⟩
    exact s.segv_setSegv true hseg hk
  · refine ⟨_, (Executes.uncommit seg hlen).exec_eq, fun k hk => ?_, by simp [hlen], by apply State.ext <;> simp⟩
    rw [State.raise_segv, s.segv_setSegv false hseg hk, decide_eq_false hlen]

/-- Settles O28: ASM and FRAME have the same priming branch. -/
theorem primingCycleIsConsumed : Obligations.PrimingCycleIsConsumed := by
  intro s hsegv hprime
  exact ⟨(Executes.priming (.inl rfl) hsegv hprime).exec_eq, (Executes.priming (.inr rfl) hsegv hprime).exec_eq⟩

/-! ### The RAW grid after a delivered assembly -/

/-- The cell of word `p` of packet `j`: the sample when the packet writes it, else what it held (R147, R150, R151). -/
theorem assemble_rawCell_placed (shelf raw : Memory) {seg j p : Nat} (hseg : seg < 4) (hj : j < 60) (hp : 2 ≤ p)
    (hp' : p < 82) :
    (assemble shelf raw).raw.rawCell (j / 2 + 30 * seg) (p - 2 + 80 * (j % 2)) =
      if (shelf.decodePacket seg j).writes p then shelf.sampleWord seg (sampleIndex j p)
      else raw.rawCell (j / 2 + 30 * seg) (p - 2 + 80 * (j % 2)) := by
  have hr : j / 2 + 30 * seg < 120 := by omega
  have hc : p - 2 + 80 * (j % 2) < 160 := by omega
  obtain ⟨hsegment, hpacket, hword⟩ := (place_eq_iff_source hj hp hp' hc).mp ⟨rfl, rfl⟩
  rw [assemble_rawCell shelf raw hr hc, ← hsegment, ← hpacket, ← hword]

/-- An assembly writes cells of the frame only, so it changes no byte outside the RAW window. -/
theorem read_assemble_outside (shelf raw : Memory) {a : Nat} (ha : rawHolds a = false) :
    (assemble shelf raw).raw.read a = raw.read a := by
  refine assemble_keeps shelf raw (fun m => m.read a = raw.read a) (fun m r c v hr hc hm => ?_) rfl
  obtain ⟨hlow, hhigh⟩ := rawHolds_rawAddr hr hc
  have hlow' : a ≠ rawAddr r c := by rintro rfl; simp [ha] at hlow
  have hhigh' : a ≠ rawAddr r c + 1 := by rintro rfl; simp [ha] at hhigh
  rw [Memory.read_setRawCell, if_neg hhigh', if_neg hlow', hm]

/-- The fields that a delivered assembly can change (R149), and that it leaves the others. -/
theorem State.deliver_eq (s : State) : s.deliver =
    { s with
      segv := 0#4, rawv := true, intv := false, colv := false, dropped := s.deliver.dropped
      dropFrame := s.deliver.dropFrame, dropTotal := s.deliver.dropTotal, frames := s.deliver.frames
      raw := s.deliver.raw } := by
  apply State.ext <;> simp

/-- Settles O29: a packet writes the cell of a word exactly when none of its words up to that one is zero. -/
theorem deliveredAssemblyPlacesItsSamples : Obligations.DeliveredAssemblyPlacesItsSamples := by
  intro s hsegv hprime
  refine ⟨_, (Executes.deliver hsegv hprime).exec_eq, ?_, ?_, ?_, s.deliver_eq⟩
  · intro seg j p hseg hj hp hp' hnonzero
    rw [State.deliver_raw, assemble_rawCell_placed _ _ hseg hj hp hp',
      if_pos ((s.shelf.decodePacket_writes seg j hp hp').mpr hnonzero)]
    rfl
  · rintro seg j p hseg hj hp hp' ⟨q, hq, hqp, hzero⟩
    have hcut : ¬(s.shelf.decodePacket seg j).writes p = true := fun hwrites =>
      (s.shelf.decodePacket_writes seg j hp hp').mp hwrites q hq hqp hzero
    rw [State.deliver_raw, assemble_rawCell_placed _ _ hseg hj hp hp', if_neg hcut]
  · intro a ha
    rw [State.deliver_raw, read_assemble_outside _ _ ha]

/-! ### The count of a delivered assembly -/

/-- A loop that adds a number in each iteration ends at the sum of the numbers. -/
theorem loop_add_eq_sum {body : Nat → Nat → Nat} (f : Nat → Nat) (hbody : ∀ k y, body k y = y + f k) (n x : Nat) :
    loop body n x = x + ∑ k ∈ Finset.range n, f k := by
  induction n with
  | zero => rfl
  | succ n ih => rw [loop_succ, hbody, ih, Finset.sum_range_succ, Nat.add_assoc]

/-- The count of R151 is a number of packets: the packet loop adds 1 for each truncated packet of a segment, the segment loop
adds these sums. -/
theorem Memory.truncatedPackets_eq_card (m : Memory) : m.truncatedPackets =
    ((Finset.range 4 ×ˢ Finset.range 60).filter fun sj => (m.decodePacket sj.1 sj.2).isTruncated = true).card := by
  have hpacket (seg y : Nat) : loop (fun j n => if (m.decodePacket seg j).isTruncated then n + 1 else n) 60 y =
      y + ∑ j ∈ Finset.range 60, if (m.decodePacket seg j).isTruncated then 1 else 0 :=
    loop_add_eq_sum _ (fun j n => by split <;> rfl) 60 y
  rw [Finset.card_filter, Finset.sum_product]
  exact (loop_add_eq_sum _ hpacket 4 0).trans (Nat.zero_add _)

/-- A packet is truncated exactly when one of its 80 sample words is zero (R146). -/
theorem Memory.decodePacket_truncated_iff (m : Memory) (seg j : Nat) :
    (m.decodePacket seg j).isTruncated = true ↔ ∃ k : Nat, k < 80 ∧ m.sampleWord seg (82 * j + 2 + k) = 0#16 := by
  rw [Memory.decodePacket_truncated]
  constructor
  · rintro ⟨q, hq, hq', hzero⟩
    obtain ⟨k, rfl⟩ := Nat.exists_eq_add_of_le hq
    exact ⟨k, by omega, by rwa [Nat.add_assoc]⟩
  · rintro ⟨k, hk, hzero⟩
    exact ⟨2 + k, by omega, by omega, by rwa [Nat.add_assoc] at hzero⟩

/-- DROP_FRAME holds the whole count, which is at most 240 (R29). -/
theorem State.deliver_dropFrame_toNat (s : State) : s.deliver.dropFrame.toNat = s.shelf.truncatedPackets := by
  have hle := s.shelf.truncatedPackets_le
  rw [State.deliver_dropFrame]
  exact Nat.mod_eq_of_lt (by omega)

/-- Settles O30: the count is the number of truncated packets, and the counters and flags follow it. -/
theorem deliveredAssemblyCountsTruncatedPackets : Obligations.DeliveredAssemblyCountsTruncatedPackets := by
  intro s hsegv hprime
  refine ⟨_, (Executes.deliver hsegv hprime).exec_eq, ?_, ?_, ?_, ?_, by simp, by simp, by simp, by simp, by simp [hprime]⟩
  · rw [State.deliver_dropFrame_toNat, Memory.truncatedPackets_eq_card]
    simp only [Memory.decodePacket_truncated_iff]
  · rw [State.deliver_dropFrame_toNat, State.deliver_dropTotal, BitVec.toNat_add, BitVec.toNat_ofNat, Nat.add_mod_mod]
  · rw [State.deliver_frames, BitVec.toNat_add]
    rfl
  · rw [State.deliver_dropFrame_toNat, State.deliver_dropped, decide_not, bne, Bool.beq_eq_decide_eq]

end Sys2Proof.Machine
end

section
/-! The radiometric scaler (spec/42_scaler.md R160 to R170): the per-sample formula as a function of the sample, the range the
tracker finds, and the INT grid an executed SCALE leaves. -/

namespace Sys2Proof.Machine

/-! ### The per-sample formula (R164) -/

theorem scalePx_of_le {v emin : Half} (h : v ≤ emin) (emax : Half) : scalePx v emin emax = 0#8 := if_pos h

theorem scalePx_of_gt {v emin emax : Half} (hlow : emin < v) (hhigh : emax < v) : scalePx v emin emax = 255#8 := by
  rw [scalePx, if_neg (BitVec.not_le.mpr hlow), if_pos hhigh]

/-- The three branches as numbers: the byte holds the whole quotient (R167). -/
theorem scalePx_toNat (v emin emax : Half) :
    (scalePx v emin emax).toNat =
      if v.toNat ≤ emin.toNat then 0
      else if emax.toNat < v.toNat then 255
      else (v.toNat - emin.toNat) * 255 / (emax.toNat - emin.toNat) := by
  rw [scalePx_eq]
  split
  · rfl
  · split
    · rfl
    · next hhigh =>
      have hquotient := scale_quotient_le (lo := emin.toNat) (Nat.le_of_not_lt hhigh)
      rw [BitVec.toNat_ofNat]
      exact Nat.mod_eq_of_lt (by omega)

theorem scalePx_toNat_of_between {v emin emax : Half} (hlow : emin < v) (hhigh : v ≤ emax) :
    (scalePx v emin emax).toNat = (v.toNat - emin.toNat) * 255 / (emax.toNat - emin.toNat) := by
  rw [scalePx_toNat, if_neg (Nat.not_le.mpr hlow), if_neg (Nat.not_lt.mpr hhigh)]

/-- A zero sample is at or below every lower bound. -/
theorem scalePx_zero (emin emax : Half) : scalePx 0#16 emin emax = 0#8 := scalePx_of_le (Nat.zero_le _) emax

/-- A sample above an inverted lower bound is above the upper one too (R166). -/
theorem scalePx_of_inverted {emin emax : Half} (h : emax < emin) (v : Half) :
    scalePx v emin emax = if v ≤ emin then 0#8 else 255#8 := by
  split
  · next hle => exact scalePx_of_le hle emax
  · next hgt =>
    have hlow : emin < v := BitVec.not_le.mp hgt
    exact scalePx_of_gt hlow (BitVec.lt_trans h hlow)

/-- From 0 over the quotient, which grows with its numerator, to 255, the greatest byte. -/
theorem scalePx_mono {v w : Half} (h : v ≤ w) (emin emax : Half) : scalePx v emin emax ≤ scalePx w emin emax := by
  by_cases hlow : v ≤ emin
  · rw [scalePx_of_le hlow]
    exact Nat.zero_le _
  have hv : emin < v := BitVec.not_le.mp hlow
  have hw : emin < w := Nat.lt_of_lt_of_le hv h
  by_cases hhigh : emax < w
  · rw [scalePx_of_gt hw hhigh]
    exact Nat.le_of_lt_succ (scalePx v emin emax).isLt
  · have hle : w ≤ emax := BitVec.not_lt.mp hhigh
    rw [BitVec.le_def, scalePx_toNat_of_between hv (BitVec.le_trans h hle), scalePx_toNat_of_between hw hle]
    exact Nat.div_le_div_right (Nat.mul_le_mul_right 255 (Nat.sub_le_sub_right h _))

/-! ### The range (R161, R162) -/

theorem Memory.track_of_zero {m : Memory} (h : ∀ r c, r < 120 → c < 160 → m.rawCell r c = 0#16) :
    m.track = ⟨0xFFFF#16, 0x0000#16⟩ := by
  rcases m.track_found.attained with ⟨hstart, -⟩ | ⟨⟨r, c, ⟨hr, hc, hne⟩, -⟩, -⟩
  · exact hstart
  · exact absurd (h r c hr hc) hne

/-- The trackers enclose every non-zero cell. -/
theorem Memory.track_bounds {m : Memory} {r c : Nat} (h : m.tracked r c) :
    m.track.tmin.toNat ≤ (m.rawCell r c).toNat ∧ (m.rawCell r c).toNat ≤ m.track.tmax.toNat :=
  m.track_found.bounds r c h (.inl h.1)

/-- With a non-zero cell each tracker ends at the value of one. -/
theorem Memory.track_attained {m : Memory} (h : ∃ r c, m.tracked r c) :
    (∃ r c, m.tracked r c ∧ m.track.tmin = m.rawCell r c) ∧ ∃ r c, m.tracked r c ∧ m.track.tmax = m.rawCell r c := by
  rcases m.track_found.attained with ⟨-, hnone⟩ | hattained
  · obtain ⟨r, c, hcell⟩ := h
    exact absurd (.inl hcell.1) (hnone r c hcell)
  · exact hattained

/-- The tracked bounds are inverted only when there is no non-zero cell (R166). -/
theorem Memory.rawCell_eq_zero_of_track_inverted {m : Memory} (h : m.track.tmax < m.track.tmin) {r c : Nat} (hr : r < 120)
    (hc : c < 160) : m.rawCell r c = 0#16 := by
  by_contra hne
  obtain ⟨hmin, hmax⟩ := Memory.track_bounds ⟨hr, hc, hne⟩
  have hlt := BitVec.lt_def.mp h
  omega

/-- Settles O35: the bounds enclose the non-zero cells and each is the value of one. -/
theorem trackerFindsLeastAndGreatestNonZeroCell : Obligations.TrackerFindsLeastAndGreatestNonZeroCell := by
  intro m
  refine ⟨fun hcell => ?_, fun hzero => ?_⟩
  · obtain ⟨⟨r, c, ⟨hr, hc, hne⟩, hmin⟩, r', c', ⟨hr', hc', hne'⟩, hmax⟩ := Memory.track_attained hcell
    refine ⟨⟨⟨r, c, hr, hc, hne, congrArg BitVec.toNat hmin⟩, ?_⟩,
      ⟨⟨r', c', hr', hc', hne', congrArg BitVec.toNat hmax⟩, ?_⟩⟩
    · rintro n ⟨x, y, hx, hy, hxy, rfl⟩
      exact (Memory.track_bounds ⟨hx, hy, hxy⟩).1
    · rintro n ⟨x, y, hx, hy, hxy, rfl⟩
      exact (Memory.track_bounds ⟨hx, hy, hxy⟩).2
  · rw [Memory.track_of_zero hzero]
    exact ⟨rfl, rfl⟩

/-! ### The INT grid after an executed SCALE -/

theorem State.scaleBody_intCell (s : State) {r c : Nat} (hr : r < 120) (hc : c < 160) :
    s.scaleBody.int.intCell r c =
      if s.upperBound = s.lowerBound then 0#8 else scalePx (s.raw.rawCell r c) s.lowerBound s.upperBound := by
  rw [State.scaleBody_int]
  split
  · exact zeroGrid_intCell _ hr hc
  · exact scaleGrid_intCell _ _ _ _ hr hc

/-- SCALE writes INT cells only, so it changes no byte outside the INT window. -/
theorem State.read_scaleBody_int_outside (s : State) {a : Nat} (ha : intHolds a = false) :
    s.scaleBody.int.read a = s.int.read a := by
  have hset (m : Memory) (r c : Nat) (b : Byte) (hr : r < 120) (hc : c < 160) (hm : m.read a = s.int.read a) :
      (m.setIntCell r c b).read a = s.int.read a := by
    have hcell : a ≠ intAddr r c := by rintro rfl; simp [intHolds_intAddr hr hc] at ha
    exact (Memory.read_write_other m b hcell).trans hm
  rw [State.scaleBody_int]
  split
  · exact zeroGrid_keeps s.int (fun m => m.read a = s.int.read a) hset rfl
  · exact scaleGrid_keeps _ _ _ s.int (fun m => m.read a = s.int.read a) hset rfl

/-- The fields that an executed SCALE can change (R163, R165, R168), and that it leaves the others. -/
theorem State.scaleBody_eq (s : State) : s.scaleBody =
    { s with
      effMin := s.scaleBody.effMin, effMax := s.scaleBody.effMax, int := s.scaleBody.int, intv := true, colv := false
      degen := s.degen || decide (s.scaleBody.effMax = s.scaleBody.effMin) } := by
  apply State.ext <;> simp [Bool.beq_eq_decide_eq]

/-- Settles O34: the bounds and the frame field by field, the cells by whether the bounds are equal. -/
theorem scaleComputesEveryIntensity : Obligations.ScaleComputesEveryIntensity := by
  intro s hrawv
  refine ⟨_, (Executes.scale hrawv).exec_eq, s.scaleBody_effMin, s.scaleBody_effMax, fun r c hr hc => ?_,
    fun a ha => s.read_scaleBody_int_outside ha, s.scaleBody_eq⟩
  rw [State.scaleBody_intCell s hr hc, State.scaleBody_effMin, State.scaleBody_effMax, apply_ite BitVec.toNat, scalePx_toNat]
  rfl

/-- A zero cell scales to 0 whatever the bounds are. -/
theorem State.scaleBody_intCell_of_zero (s : State) {r c : Nat} (hr : r < 120) (hc : c < 160)
    (h : s.raw.rawCell r c = 0#16) : s.scaleBody.int.intCell r c = 0#8 := by
  rw [State.scaleBody_intCell s hr hc, h, scalePx_zero, ite_self]

/-- Settles O36: two properties of the formula, and two of the grid an executed SCALE leaves. -/
theorem scalingIsMonotoneClampedAndTotal : Obligations.ScalingIsMonotoneClampedAndTotal := by
  refine ⟨fun v w emin emax _ hvw => scalePx_mono hvw emin emax, fun v emin emax hrange => ?_, fun s hrawv hbounds => ?_,
    fun s hrawv => ?_⟩
  · exact ⟨fun hlow => scalePx_of_le hlow emax, fun hhigh => scalePx_of_gt (BitVec.lt_trans hrange hhigh) hhigh⟩
  · refine ⟨_, (Executes.scale hrawv).exec_eq, fun r c hr hc => ?_⟩
    rw [State.scaleBody_intCell s hr hc, if_pos hbounds]
  · exact ⟨_, (Executes.scale hrawv).exec_eq, fun r c hr hc hzero => s.scaleBody_intCell_of_zero hr hc hzero⟩

/-- Settles O37: the formula for an inverted range; tracked bounds are inverted only over a grid of zeros. -/
theorem invertedRangeIsAThreshold : Obligations.InvertedRangeIsAThreshold := by
  intro s hrawv hinverted
  have hne : s.upperBound ≠ s.lowerBound := BitVec.ne_of_lt hinverted
  refine ⟨_, (Executes.scale hrawv).exec_eq, by simp [hne], fun r c hr hc => ?_, fun hmin hmax r c hr hc => ?_⟩
  · rw [State.scaleBody_intCell s hr hc, if_neg hne, scalePx_of_inverted hinverted]
  · rw [State.upperBound, State.lowerBound, if_pos hmin, if_pos hmax] at hinverted
    have hzero := Memory.rawCell_eq_zero_of_track_inverted hinverted hr hc
    exact ⟨hzero, s.scaleBody_intCell_of_zero hr hc hzero⟩

/-! ### The RAW grid over a step (R146, R170) -/

/-- An assembly writes a cell only with the non-zero word that reaches it. -/
theorem assemble_rawCell_ne_zero {shelf raw : Memory} {r c : Nat} (hr : r < 120) (hc : c < 160)
    (h : (assemble shelf raw).raw.rawCell r c ≠ raw.rawCell r c) : (assemble shelf raw).raw.rawCell r c ≠ 0#16 := by
  rw [assemble_rawCell shelf raw hr hc] at h ⊢
  split
  · next hwrites =>
    have hword : 2 ≤ sourceWord c ∧ sourceWord c < 82 := by unfold sourceWord; omega
    exact (shelf.decodePacket_writes _ _ hword.1 hword.2).mp hwrites _ hword.1 le_rfl
  · next hkept => exact absurd (if_neg hkept) h

/-- A command leaves RAW alone or assembles the shelf into it. -/
theorem Executes.raw_cases {s t : State} {i : Instr} (h : Executes s i t) :
    t.raw = s.raw ∨ t.raw = (assemble s.shelf s.raw).raw := by
  cases h with
  | deliver | frame => exact .inr (by simp)
  | _ => exact .inl (by simp)

theorem WritesCsr.raw_cases {s t : State} {v : Word} {r : Csr} (h : WritesCsr s v r t) :
    t.raw = s.raw ∨ t.raw = (assemble s.shelf s.raw).raw := by
  cases h with
  | command _ hexec => exact hexec.raw_cases
  | _ => exact .inl rfl

/-- A step leaves RAW alone or is such a command. -/
theorem Steps.raw_cases {s t : State} (h : Steps s t) : t.raw = s.raw ∨ t.raw = (assemble s.shelf s.raw).raw := by
  cases h with
  | write _ hw =>
    cases hw with
    | csr hcsr => exact hcsr.raw_cases
    | _ => exact .inl rfl
  | _ => exact .inl rfl

/-- Settles O42: a step that changes a RAW cell is an assembly, and a zero sample is never placed. -/
theorem rawCellsAreNeverClearedToZero : Obligations.RawCellsAreNeverClearedToZero := by
  intro s t r c hr hc hstep hne
  rcases (Steps.of_step hstep).raw_cases with hkept | hassembled
  · exact absurd (by rw [hkept]) hne
  · rw [hassembled] at hne ⊢
    exact assemble_rawCell_ne_zero hr hc hne

end Sys2Proof.Machine
end

section
/-! The colormap (spec/43_colormap.md R180 to R184): the palette byte each pixel gets, and the frame of an executed MAP. -/

namespace Sys2Proof.Machine

/-- The palette byte a channel is given, without the clamp (R182, R184). -/
theorem mapPx_eq_palRom (p i : Byte) {ch : Nat} (hch : ch < 3) : mapPx p i ch = Config.palRom p (3 * i.toNat + ch) := by
  rw [mapPx, (palOffset_eq i hch).1]

theorem State.mapBody_colByte (s : State) {r c ch : Nat} (hr : r < 120) (hc : c < 160) (hch : ch < 3) :
    s.mapBody.col.colByte r c ch = Config.palRom s.palsel (3 * (s.int.intCell r c).toNat + ch) := by
  rw [State.mapBody_col, mapGrid_colByte _ _ _ hr hc hch, mapPx_eq_palRom _ _ hch]

/-- MAP writes COL bytes only, so it changes no byte outside the COL window. -/
theorem State.read_mapBody_col_outside (s : State) {a : Nat} (ha : colHolds a = false) :
    s.mapBody.col.read a = s.col.read a := by
  have hset (m : Memory) (r c ch : Nat) (b : Byte) (hr : r < 120) (hc : c < 160) (hch : ch < 3)
      (hm : m.read a = s.col.read a) : (m.setColByte r c ch b).read a = s.col.read a := by
    have hbyte : a ≠ colAddr r c ch := by rintro rfl; simp [colHolds_colAddr hr hc hch] at ha
    exact (Memory.read_write_other m b hbyte).trans hm
  rw [State.mapBody_col]
  exact mapGrid_keeps _ _ s.col (fun m => m.read a = s.col.read a) hset rfl

/-- The fields that an executed MAP can change (R180), and that it leaves the others: no flag is raised (R184). -/
theorem State.mapBody_eq (s : State) : s.mapBody = { s with col := s.mapBody.col, colv := true } := by
  apply State.ext <;> simp

/-- Settles O38: an offset is at most `3 * 255 + 2`, so the clamp never moves it; the frame, byte by byte and field by field. -/
theorem mapLooksUpEveryPixel : Obligations.MapLooksUpEveryPixel := by
  intro s hintv
  refine ⟨_, (Executes.map hintv).exec_eq, fun r c ch hr hc hch => ?_, fun a ha => s.read_mapBody_col_outside ha,
    s.mapBody_eq⟩
  exact ⟨(palOffset_eq (s.int.intCell r c) hch).2, s.mapBody_colByte hr hc hch⟩

end Sys2Proof.Machine
end

section
/-! The whole-frame pipeline (spec/44_frame.md R190 to R192): FRAME against ASM, SCALE and MAP one after another. -/

namespace Sys2Proof.Machine

/-- Each command of a delivered FRAME establishes the precondition of the next, so the three run in a row: the assembly sets
RAWV for SCALE, which sets INTV for MAP (R190). -/
theorem Executes.pipeline {s : State} (hsegv : s.segv = 0b1111#4) (hprime : s.prime = false) :
    Executes s .asm s.deliver ∧ Executes s.deliver .scale s.deliver.scaleBody ∧
      Executes s.deliver.scaleBody .map s.deliver.scaleBody.mapBody :=
  ⟨.deliver hsegv hprime, .scale s.deliver_rawv, .map s.deliver.scaleBody_intv⟩

/-- Settles O39: the pipeline ends where the delivered branch of FRAME does; the priming branch and the refusal are the same
branches for ASM and FRAME. -/
theorem frameIsAssembleScaleMap : Obligations.FrameIsAssembleScaleMap := by
  refine ⟨fun s hsegv hprime => ?delivered, fun s hsegv hprime => ?priming, fun s hsegv => ?refused⟩
  case delivered =>
    obtain ⟨hasm, hscale, hmap⟩ := Executes.pipeline hsegv hprime
    have hframe : Executes s .frame s.deliver.scaleBody.mapBody := .frame hsegv hprime
    exact ⟨_, _, _, hasm.exec_eq, hscale.exec_eq, hmap.exec_eq, hframe.exec_eq, by simp⟩
  case priming =>
    obtain ⟨hasm, hframe⟩ := primingCycleIsConsumed s hsegv hprime
    rw [hasm, hframe]
  case refused =>
    rw [exec_of_refuses (i := .asm) hsegv, exec_of_refuses (i := .frame) hsegv]

end Sys2Proof.Machine
end

section
/-! What is sticky and what counts (spec/60_exceptions.md R201, R211): over the cases of a step, a flag falls only by the two
operations that clear flags, and the event counters move only with a delivered frame or a hard reset. -/

namespace Sys2Proof.Machine

/-! ### A flag that falls -/

/-- A CSR write keeps a flag that is up, unless it is the STATUS write that selects its bit (R125). -/
theorem WritesCsr.status_of_flag_falls {s t : State} {v : Word} {r : Csr} (h : WritesCsr s v r t) {c : Condition}
    (hup : s.flag c = true) (hdown : t.flag c = false) : r = .status ∧ v.getLsbD c.code = true := by
  cases h with
  | command _ hexec => simp [hexec.keeps_flag hup] at hdown
  | illegal | illegalPalette => simp [hup] at hdown
  | clearFlags => exact ⟨rfl, by simpa [hup] using hdown⟩
  | readOnly => simp [hup] at hdown
  | rangeMin | rangeMax | mode | palette => cases c <;> exact absurd (hup.symm.trans hdown) nofun

/-- A bus write that takes a flag down is such a STATUS write: a rejected access and a shelf byte leave the flags alone. -/
theorem WritesBus.status_of_flag_falls {s t : State} {addr : Addr} {d : BusData} (h : WritesBus s addr d t)
    {c : Condition} (hup : s.flag c = true) (hdown : t.flag c = false) :
    addr = Csr.status.addr ∧ ∃ v, d = .b32 v ∧ v.getLsbD c.code = true := by
  cases h with
  | reject => simp [hup] at hdown
  | csr hcsr =>
    rw [State.flag_respond] at hdown
    obtain ⟨rfl, hbit⟩ := hcsr.status_of_flag_falls hup hdown
    exact ⟨rfl, _, rfl, hbit⟩
  | shelf => cases c <;> exact absurd (hup.symm.trans hdown) nofun

/-- The host's script holds no flag (log entry 1). -/
@[simp] theorem State.flag_withScript (s : State) (script : List HostOp) (c : Condition) :
    State.flag { s with script := script } c = s.flag c := by
  cases c <;> rfl

/-- Settles O23, by the cases of a step: a read changes no flag, and a write that takes one down is a STATUS write. -/
theorem stickyFlagsFallOnlyByClearOrReset : Obligations.StickyFlagsFallOnlyByClearOrReset := by
  intro s t c hstep hup hdown
  cases Steps.of_step hstep with
  | idle => simp [hup] at hdown
  | read => simp [hup] at hdown
  | write hscript hw =>
    obtain ⟨rfl, v, rfl, hbit⟩ := hw.status_of_flag_falls (by simpa using hup) hdown
    exact .inl ⟨v, _, hscript, hbit⟩
  | hreset hscript => exact .inr ⟨_, hscript⟩

/-! ### A counter that changes -/

/-- The three event counters (R211). -/
def State.counters (s : State) : Word × Half × Word := (s.frames, s.dropFrame, s.dropTotal)

theorem State.counters_ne_iff {s t : State} : t.counters ≠ s.counters ↔
    t.frames ≠ s.frames ∨ t.dropFrame ≠ s.dropFrame ∨ t.dropTotal ≠ s.dropTotal := by
  simp only [State.counters, ne_eq, Prod.mk.injEq, not_and_or]

/-- The only branches of a command that count are the delivered ones of ASM and FRAME (R149, R190). -/
theorem Executes.of_counters_ne {s t : State} {i : Instr} (h : Executes s i t) (hne : t.counters ≠ s.counters) :
    s.segv = 0b1111#4 ∧ s.prime = false ∧ (i = .asm ∨ i = .frame) := by
  cases h with
  | deliver hsegv hprime => exact ⟨hsegv, hprime, .inl rfl⟩
  | frame hsegv hprime => exact ⟨hsegv, hprime, .inr rfl⟩
  | _ => simp [State.counters] at hne

theorem WritesCsr.command_of_counters_ne {s t : State} {v : Word} {r : Csr} (h : WritesCsr s v r t)
    (hne : t.counters ≠ s.counters) : r = .cmd ∧ ∃ i, decode v = .ok i ∧ Executes s i t := by
  cases h with
  | command hdec hexec => exact ⟨rfl, _, hdec, hexec⟩
  | _ => exact absurd rfl hne

/-- Settles O41, by the cases of a step: outside a hard reset only a command reaches the counters, and it is one that
delivered. -/
theorem countersChangeOnlyOnDelivery : Obligations.CountersChangeOnlyOnDelivery := by
  intro s t hstep hchange
  have hne := State.counters_ne_iff.mpr hchange
  cases Steps.of_step hstep with
  | write hscript hw =>
    cases hw with
    | csr hcsr =>
      obtain ⟨rfl, i, hdec, hexec⟩ := hcsr.command_of_counters_ne hne
      obtain ⟨hsegv, hprime, hi⟩ := hexec.of_counters_ne hne
      exact .inl ⟨_, _, hscript, by simpa [hdec] using hi, hsegv, hprime⟩
    | _ => exact absurd rfl hne
  | hreset hscript => exact .inr ⟨_, hscript⟩
  | _ => exact absurd rfl hne

end Sys2Proof.Machine
end

section
/-! The resets (spec/70_reset_and_hazards.md R230, R231): the power-on values, the step that is a hard reset, and SRST, which is
no reset of the registers. -/

namespace Sys2Proof.Machine

/-! ### Power-on -/

/-- Every sticky flag is clear at power-on. -/
@[simp] theorem State.flag_reset (c : Condition) : State.reset.flag c = false := by
  cases c <;> rfl

/-- STATUS at power-on is the PRIME bit alone. -/
theorem State.statusWord_reset : State.reset.statusWord = 0x00000001#32 := by
  decide

/-! ### Hard reset and SRST -/

/-- A hard reset takes its own operation from the script and answers nothing (R107; log entry 7). -/
theorem step_hreset {s : State} {rest : List HostOp} (h : s.script = .hreset :: rest) :
    step s = .next (State.hardReset { s with script := rest }) :=
  step_cons h

/-- What SRST leaves differs from the state before it in PRIME and SEGV alone (R131). -/
theorem State.clearSegv_setPrime_eq (s : State) :
    { s.clearSegv with prime := true } = { s with prime := true, segv := 0#4 } := by
  apply State.ext <;> simp

/-- Settles O9, by the columns of R231: power-on value by value, the step of a hard reset, and the one branch of SRST. -/
theorem resetValues : Obligations.ResetValues := by
  refine ⟨?powerOn, fun s rest hscript => ?hardReset, fun s => ?srst⟩
  case powerOn =>
    exact ⟨rfl, rfl, rfl, rfl, rfl, State.flag_reset, rfl, rfl, rfl, rfl, rfl, rfl, rfl, rfl, rfl, rfl,
      State.statusWord_reset⟩
  case hardReset => exact step_hreset hscript
  case srst => rw [Executes.srst.exec_eq, State.clearSegv_setPrime_eq]

end Sys2Proof.Machine
end
